-- ==== Sys2Proof/Word.lean ====
section
/-!
DEFINITION. Sys2Proof/Word.lean: the word types of the model. A byte is what frames and records are made of; the
millisecond clock and the instant counter are 32-bit counts that wrap (spec/00_scope.md, Time); a capture word has 32 bits
(R183). Everything the manual only counts or compares is a `Nat` or an `Int`.
-/
namespace Sys2Proof

/-- One byte of a frame or of an area record. -/
abbrev Byte := BitVec 8

/-- A count of the device millisecond clock or of the instant counter: 32 bits, wrapping (spec/00_scope.md, Time). -/
abbrev Count32 := BitVec 32

/-- A command id, a capture generation or a sequence count: 16 bits, wrapping (R19, R107, R183). -/
abbrev Count16 := BitVec 16

/-- One word of the capture memory (R183). -/
abbrev CapWord := BitVec 32

end Sys2Proof
end

