-- ==== Sys2Proof/Syntax.lean ====
section
/-!
DEFINITION. Sys2Proof/Syntax.lean: the commands of the block, one constructor for each row of spec/opcode_table.json. The
part has no instruction stream: a command is an event on a port, on a pin, on a timer, on the non-volatile store, or the
serving of the management request at the head of MGT's queue.
-/
namespace Sys2Proof

/-- The two Ethernet ports: P1 faces the field, P2 faces the station. -/
inductive Port where
  | p1
  | p2
  deriving DecidableEq, Repr

/-- The port on the other side of the part. -/
def Port.other : Port → Port
  | .p1 => .p2
  | .p2 => .p1

/-- An Ethernet frame as it arrives whole at a port, or leaves one. `checkOk` is the outcome of the Ethernet check (R3). -/
structure EthFrame where
  checkOk   : Bool
  dst       : BitVec 48
  src       : BitVec 48
  etherType : BitVec 16
  payload   : List Byte
  deriving DecidableEq, Repr

/-- The two utility sources of CHG: utility A and utility B. -/
inductive Utility where
  | a
  | b
  deriving DecidableEq, Repr

/-- The other utility. -/
def Utility.other : Utility → Utility
  | .a => .b
  | .b => .a

/-- The commands. Each docstring names the row's rule; the operands are what the environment supplies with the event.
The request rows (IDENT and the following) carry no operand: the request they serve stands at the head of MGT's queue
(R200), where FRAME_RECEPTION put it with its originator, tag and parameters. -/
inductive Instr where
  /-- FRAME_RECEPTION (R3): `frame` has arrived whole on `port`; `maintIn` is the level of the MAINT_IN line (R81). -/
  | frameReception (port : Port) (frame : EthFrame) (maintIn : Bool)
  /-- LINK_DOWN (R2): the port's link goes from UP to DOWN. -/
  | linkDown (port : Port)
  /-- LINK_UP (R2): the port's link returns to UP. -/
  | linkUp (port : Port)
  /-- TRANSMISSION_END (R17): the port has sent its frame to the end. -/
  | transmissionEnd (port : Port)
  /-- POWER_UP (R21): power is applied and a reset begins. -/
  | powerUp
  /-- RESET_N_LOW (R21): RESET_N goes low and a reset begins. -/
  | resetNLow
  /-- RESET_COMPLETE (R21): RESET_N is high; the straps NOMF (true is 60 Hz) and MGW are sampled and the link states sensed. -/
  | resetComplete (nomf : Bool) (mgw : Bool) (up1 : Bool) (up2 : Bool)
  /-- BYPASS_FRAME (R21): a frame arrives on `port` while the ports are joined. -/
  | bypassFrame (port : Port) (frame : EthFrame)
  /-- AUX_SUPPLY_LOSS (R21): auxiliary supply is lost and the bypass relay joins the ports. -/
  | auxSupplyLoss
  /-- RESTART_RESET (R212): the reset that a RESTART arranged begins. -/
  | restartReset
  /-- SILENCE_TIMEOUT (R32). -/
  | silenceTimeout
  /-- STATUS_AGE_EXPIRY (R95) of a breaker. -/
  | statusAgeExpiry (b : Fin 24)
  /-- COMMAND_REPEAT (R108) of a breaker's record. -/
  | commandRepeat (b : Fin 24)
  /-- OPERATE_TIMER_EXPIRY (R110) of a breaker's record. -/
  | operateTimerExpiry (b : Fin 24)
  /-- BREAKER_FAILURE_TIMER_EXPIRY (R113) of a breaker's record. -/
  | breakerFailureTimerExpiry (b : Fin 24)
  /-- STATE_STORE_COMPLETE (R205): the oldest state store write ends; `ok` says whether the store took it. -/
  | stateStoreComplete (ok : Bool)
  /-- SOURCE_TIMER_EXPIRY (R124) of a utility's loss or return timer. -/
  | sourceTimerExpiry (u : Utility)
  /-- STEP_WAIT_EXPIRY (R135). -/
  | stepWaitExpiry
  /-- STEP_SYNC_TIMEOUT (R137). -/
  | stepSyncTimeout
  /-- AWAIT_DEADLINE (R138). -/
  | awaitDeadline
  /-- DELAY_DEADLINE (R138). -/
  | delayDeadline
  /-- OVERLAP_TIMER_EXPIRY (R145). -/
  | overlapTimerExpiry
  /-- SETTLING_END (R148). -/
  | settlingEnd
  /-- CONTROLLER_AGE_EXPIRY (R155) of a generator. -/
  | controllerAgeExpiry (g : Fin 6)
  /-- START_TIMER_EXPIRY (R157) of a generator. -/
  | startTimerExpiry (g : Fin 6)
  /-- SYNC_TIMER_EXPIRY (R168) of a generator. -/
  | syncTimerExpiry (g : Fin 6)
  /-- COOLDOWN_TIMER_EXPIRY (R175) of a generator. -/
  | cooldownTimerExpiry (g : Fin 6)
  /-- SETPOINT_PERIOD (R176). -/
  | setpointPeriod
  /-- SELECTION_TIMEOUT (R210). -/
  | selectionTimeout
  /-- IDENT (R217). -/
  | ident
  /-- ECHO (R217). -/
  | echo
  /-- READ (R203). -/
  | read
  /-- WRITE (R204). -/
  | write
  /-- DEVICE_WRITE_COMPLETE (R206); in each of these rows `ok` says whether the store took the write (R205). -/
  | deviceWriteComplete (ok : Bool)
  /-- STREAMS_WRITE_COMPLETE (R24). -/
  | streamsWriteComplete (ok : Bool)
  /-- QUANTITIES_WRITE_COMPLETE (R42). -/
  | quantitiesWriteComplete (ok : Bool)
  /-- GROUPS_WRITE_COMPLETE (R49). -/
  | groupsWriteComplete (ok : Bool)
  /-- ELEMENTS_WRITE_COMPLETE (R64). -/
  | elementsWriteComplete (ok : Bool)
  /-- CURVES_WRITE_COMPLETE (R74). -/
  | curvesWriteComplete (ok : Bool)
  /-- ZONES_WRITE_COMPLETE (R78). -/
  | zonesWriteComplete (ok : Bool)
  /-- BREAKERS_WRITE_COMPLETE (R92). -/
  | breakersWriteComplete (ok : Bool)
  /-- BUSES_WRITE_COMPLETE (R98). -/
  | busesWriteComplete (ok : Bool)
  /-- SOURCES_WRITE_COMPLETE (R120). -/
  | sourcesWriteComplete (ok : Bool)
  /-- CAUSES_WRITE_COMPLETE (R127). -/
  | causesWriteComplete (ok : Bool)
  /-- SCHEMES_WRITE_COMPLETE (R129). -/
  | schemesWriteComplete (ok : Bool)
  /-- GENERATORS_WRITE_COMPLETE (R153). -/
  | generatorsWriteComplete (ok : Bool)
  /-- CAPTURE_CONFIG_WRITE_COMPLETE (R185). -/
  | captureConfigWriteComplete (ok : Bool)
  /-- SETTINGS_LOCK_WRITE_COMPLETE (R207). -/
  | settingsLockWriteComplete (ok : Bool)
  /-- WATCH_SET (R208). -/
  | watchSet
  /-- WATCH_READ (R208). -/
  | watchRead
  /-- FORCE (R209). -/
  | force
  /-- FORCE_CLEAR_ALL (R209). -/
  | forceClearAll
  /-- SELECT (R210). -/
  | select
  /-- CANCEL (R210). -/
  | cancel
  /-- OPERATE MODE (R212). -/
  | mode
  /-- OPERATE MAINT_ON (R81, R212). -/
  | maintOn
  /-- OPERATE MAINT_OFF (R81, R212). -/
  | maintOff
  /-- OPERATE RESTART (R212). -/
  | restart
  /-- OPERATE BREAKER_OPEN (R115). -/
  | breakerOpen
  /-- OPERATE BREAKER_CLOSE (R115). -/
  | breakerClose
  /-- OPERATE LOCKOUT_RESET (R116). -/
  | lockoutReset
  /-- OPERATE BLOCK_RESET (R117). -/
  | blockReset
  /-- OPERATE RUN_SCHEME (R146). -/
  | runScheme
  /-- OPERATE CHG_RESET (R146). -/
  | chgReset
  /-- OPERATE CHG_INHIBIT (R147). -/
  | chgInhibit
  /-- OPERATE CHG_RELEASE (R147). -/
  | chgRelease
  /-- OPERATE GEN_RESET (R179). -/
  | genReset
  /-- ERRORS (R215). -/
  | errors
  /-- CAPTURE_READ (R194). -/
  | captureRead
  /-- CAPTURE_DELETE (R195). -/
  | captureDelete
  /-- CAPTURE_LOCK (R196). -/
  | captureLock
  /-- CAPTURE_UNLOCK (R196). -/
  | captureUnlock
  /-- CAPTURE_TRIGGER (R197). -/
  | captureTrigger
  /-- UNKNOWN_REQUEST (R200). -/
  | unknownRequest
  deriving DecidableEq, Repr

end Sys2Proof
end

