-- ==== Sys2Proof/Decode.lean ====
section
/-!
DEFINITION. Sys2Proof/Decode.lean: the commands that words spell. No row of spec/opcode_table.json gives bits (every row's
`fields` is empty): a command of this part is an event, and a management request reaches it inside a frame, whose bytes
Machine/Reception.lean reads. So no word spells a command.
-/
namespace Sys2Proof

/-- The command that a word of `nbits` bits spells: none, for no row of the table gives bits. -/
def decodeTableWord (_nbits _w : Nat) : Option Instr := none

end Sys2Proof
end

