-- ==== Sys2Proof/Config.lean ====
section
/-!
DEFINITION. Sys2Proof/Config.lean: the constants of the part (spec/00_scope.md, Capacities) and the free values, opaque
constants with no body that nothing in Lean can evaluate.
-/
namespace Sys2Proof.Config

/-- The Bayline Ethernet type (R3). -/
def baylineType : BitVec 16 := 0x88B5

/-- The broadcast Ethernet destination of every frame the part originates (R3). -/
def ethBroadcast : BitVec 48 := 0xFFFFFFFFFFFF

/-- FREE VALUE: the Ethernet address of a port. R3 says that an originated frame carries it and no rule states it
(notes/assumptions/1.md). -/
opaque portEthernetAddress : Port → BitVec 48

/-- FREE VALUE: how the n-th tie between two outcomes that the manual leaves open is resolved (notes/assumptions/2.md).
`Dev.ties` counts the ties met, across resets. -/
opaque tie : Nat → Bool

/-- A forward queue holds at most 32 frames (R11). -/
def forwardCapacity : Nat := 32
/-- The management request queue holds at most 4 requests (R199). -/
def requestCapacity : Nat := 4
/-- The error list holds at most 16 entries (R214). -/
def errorCapacity : Nat := 16
/-- The notice queue holds at most 32 notices (R216). -/
def noticeCapacity : Nat := 32
/-- A response segment carries at most 1024 bytes of data (R200). -/
def segmentBytes : Nat := 1024
/-- Where the 32-bit counters of R20, R23, R188 and R199 saturate. -/
def saturate32 : Nat := 4294967295
/-- Where the 16-bit counters of R65, R77, R190 and R214 saturate. -/
def saturate16 : Nat := 65535

/-- The sample count modulus C: 4000 at 50 Hz and 4800 at 60 Hz (R25). -/
def modulus (f60 : Bool) : Nat := if f60 then 4800 else 4000
/-- The nominal frequency in Hz. -/
def nominalHz (f60 : Bool) : Nat := if f60 then 60 else 50
/-- The constant K of the frequency computation (R55). -/
def kFrequency (f60 : Bool) : Nat := if f60 then 38197 else 31831

/-- The silence timeout (R32). -/
def silenceMs : Nat := 10
/-- The status age limit (R95). -/
def statusAgeMs : Nat := 3000
/-- The controller age limit (R155). -/
def controllerAgeMs : Nat := 2000
/-- The selection timeout (R210). -/
def selectionMs : Nat := 30000
/-- The wait of a WAITING_BREAKER step (R135). -/
def stepWaitMs : Nat := 1000
/-- The longest settling (R148). -/
def settlingMs : Nat := 5000
/-- The setpoint period (R176). -/
def setpointMs : Nat := 100
/-- The full integrator of an inverse-time element (R75). -/
def integratorFull : Nat := 16777216
/-- The clamp of a sample value (R28). -/
def sampleLimit : Int := 8388607
/-- Words of one capture area (R183). -/
def areaWords : Nat := 32768

end Sys2Proof.Config
end

