-- ==== Sys2Proof/Machine/State.lean ====
section
/-!
DEFINITION. Sys2Proof/Machine/State.lean: the state of the part as plain data, and its value after reset. Every default
field value below is the value after reset that the manual gives (or that the assumption log names). The stored tables are
kept as the raw values their area records carry (R202), because a stored table may hold values that fail its checks (R218).
-/
namespace Sys2Proof.Machine

/-! ## Stored tables -/

/-- The DEVICE record (R206). -/
structure DeviceEntry where
  station   : Nat := 0x0100
  notice    : Nat := 0
  startMode : Nat := 2
  freq      : Nat := 0
  deriving DecidableEq, Repr

/-- A stream entry (R22); `slots` are the eight (channel, quantity) slots, of which the first `count` are used. -/
structure StreamEntry where
  enable  : Nat := 0
  source  : Nat := 0
  count   : Nat := 0
  slots   : Vector (Nat × Nat) 8 := Vector.replicate 8 (0, 0)
  delay   : Nat := 0
  forward : Nat := 0
  deriving DecidableEq, Repr

/-- A group entry (R49); an absent id is 255, an absent nominal voltage or rating is 0. -/
structure GroupEntry where
  phaseI  : Vector Nat 3 := Vector.replicate 3 255
  phaseV  : Vector Nat 3 := Vector.replicate 3 255
  neutral : Nat := 255
  nominal : Nat := 0
  rating  : Nat := 0
  bus     : Nat := 255
  deriving DecidableEq, Repr

/-- An element entry (R63). -/
structure ElementEntry where
  enable      : Nat := 0
  kind        : Nat := 0
  source      : Nat := 0
  pickup      : Int := 0
  maintPickup : Nat := 0
  curve       : Nat := 0
  dial        : Nat := 0
  delay       : Nat := 0
  resetMode   : Nat := 0
  decay       : Nat := 0
  phaseMode   : Nat := 0
  slope       : Nat := 0
  tripCount   : Nat := 0
  trip        : Vector Nat 4 := Vector.replicate 4 255
  lockout     : Nat := 0
  block       : Nat := 0
  bf          : Nat := 0
  monitor     : Nat := 0
  capture     : Nat := 0
  deriving DecidableEq, Repr

/-- A member of a differential zone (R78). -/
structure ZoneMember where
  breaker  : Nat := 0
  group    : Nat := 0
  polarity : Nat := 0
  switched : Nat := 0
  deriving DecidableEq, Repr

/-- A differential zone (R78). -/
structure ZoneEntry where
  count   : Nat := 0
  members : Vector ZoneMember 10 := Vector.replicate 10 {}
  deriving DecidableEq, Repr

/-- A close permissive term (R91). -/
structure PermTerm where
  cond : Nat := 0
  id   : Nat := 255
  deriving DecidableEq, Repr

/-- A breaker entry (R91). -/
structure BreakerEntry where
  addr        : Nat := 0
  kind        : Nat := 0
  side1       : Nat := 0
  side2       : Nat := 255
  timeout     : Nat := 0
  bfDelay     : Nat := 0
  backupCount : Nat := 0
  backup      : Vector Nat 4 := Vector.replicate 4 255
  permCount   : Nat := 0
  perms       : Vector PermTerm 4 := Vector.replicate 4 {}
  lockout     : Nat := 0
  deriving DecidableEq, Repr

/-- A bus entry (R98). -/
structure BusEntry where
  group : Nat := 255
  live  : Nat := 80
  dead  : Nat := 20
  block : Nat := 0
  deriving DecidableEq, Repr

/-- A source record (R120). -/
structure SourceEntry where
  bus         : Nat := 255
  low         : Int := -500
  high        : Nat := 500
  lossDelay   : Nat := 1000
  returnDelay : Nat := 300
  deriving DecidableEq, Repr

/-- A scheme step (R128). -/
structure StepEntry where
  kind   : Nat := 0
  object : Nat := 0
  cond   : Nat := 0
  time   : Nat := 0
  link   : Nat := 0
  deriving DecidableEq, Repr

/-- An END step with no follow-on (R128). -/
def StepEntry.endStep : StepEntry := { kind := 8, object := 0, cond := 0, time := 0, link := 255 }

/-- A scheme (R128); the default is the unwritten scheme. -/
structure SchemeEntry where
  count       : Nat := 1
  limit       : Nat := 100
  tripBreaker : Nat := 255
  steps       : Vector StepEntry 32 := (Vector.replicate 32 {}).set 0 StepEntry.endStep
  deriving DecidableEq, Repr

/-- A generator entry (R151). -/
structure GenEntry where
  addr         : Nat := 0
  breaker      : Nat := 0
  group        : Nat := 0
  rating       : Nat := 0
  rank         : Nat := 0
  startTimeout : Nat := 0
  syncTimeout  : Nat := 0
  ramp         : Nat := 0
  cooldown     : Nat := 0
  deriving DecidableEq, Repr

/-- The paralleling record (R152). -/
structure ParEntry where
  angle      : Nat := 2038
  voltWindow : Nat := 31750
  slipWindow : Nat := 200
  targetSlip : Nat := 100
  gs         : Nat := 50
  gv         : Nat := 50
  gl         : Nat := 100
  gf         : Nat := 50
  gq         : Nat := 100
  deriving DecidableEq, Repr

/-- The CAPTURE_CONFIG record (R184). -/
structure CaptureEntry where
  count    : Nat := 0
  channels : Vector Nat 16 := Vector.replicate 16 255
  pre      : Nat := 0
  post     : Nat := 0
  policy   : Nat := 0
  element  : Nat := 0
  transfer : Nat := 0
  gen      : Nat := 0
  manual   : Nat := 0
  deriving DecidableEq, Repr

/-- The settings lock word (R207). -/
structure LockEntry where
  fromTop    : Nat := 0
  span       : Nat := 0
  complement : Nat := 0
  deriving DecidableEq, Repr

/-- All stored tables. The default is the store that has never been written. -/
structure Tables where
  device   : DeviceEntry := {}
  streams  : Vector StreamEntry 24 := Vector.replicate 24 {}
  kinds    : Vector Nat 96 := Vector.replicate 96 0
  groups   : Vector GroupEntry 24 := Vector.replicate 24 {}
  elements : Vector ElementEntry 32 := Vector.replicate 32 {}
  curves   : Vector (Vector Nat 48) 8 := Vector.replicate 8 (Vector.replicate 48 0)
  zones    : Vector ZoneEntry 4 := Vector.replicate 4 {}
  breakers : Vector BreakerEntry 24 := Vector.replicate 24 {}
  buses    : Vector BusEntry 6 := Vector.replicate 6 {}
  sources  : Vector SourceEntry 2 := Vector.replicate 2 {}
  causes   : Vector Nat 5 := Vector.replicate 5 255
  schemes  : Vector SchemeEntry 8 := Vector.replicate 8 {}
  gens     : Vector GenEntry 6 := Vector.replicate 6 {}
  par      : ParEntry := {}
  capture  : CaptureEntry := {}
  lock     : LockEntry := {}
  deriving DecidableEq, Repr

/-! ## LNK -/

/-- A frame of the part's own as built, before the arbiter gives its sequence value (R19). -/
structure OutFrame where
  dest    : Nat
  src     : Nat
  kind    : Nat
  test    : Bool
  segLast : Bool
  body    : List Byte
  deriving DecidableEq, Repr

/-- What waits in a management response slot (R16): the segment, whether the request in service ends when it leaves
(R200), and whether a RESTART waits for it (R212). -/
structure SlotEntry where
  frame       : OutFrame
  endsService : Bool
  restart     : Bool
  deriving DecidableEq, Repr

/-- The link counters of one port (R20). -/
structure PortCounters where
  rxGood       : Nat := 0
  rxCheckError : Nat := 0
  rxRunt       : Nat := 0
  rxOwnSource  : Nat := 0
  rxMalformed  : Nat := 0
  rxRefused    : Nat := 0
  txFrames     : Nat := 0
  txDiscarded  : Nat := 0
  linkDown     : Nat := 0
  deriving DecidableEq, Repr

/-- One port: link state (R2), the frame in transmission, the management response slot and the immediate reply waiting for
it (R16, R199), the sequence count (R19), the counters, and `lastOut`, the model's own record of the frame that last left
the port whole. -/
structure PortRec where
  up       : Bool := true
  tx       : Option EthFrame := none
  slot     : Option SlotEntry := none
  reply    : Option OutFrame := none
  seq      : Count16 := 0
  counters : PortCounters := {}
  lastOut  : Option EthFrame := none
  deriving DecidableEq, Repr

/-- The link unit. -/
structure Lnk where
  p1         : PortRec := {}
  p2         : PortRec := {}
  fq12       : List EthFrame := []
  fq21       : List EthFrame := []
  protQueue  : List (Fin 24 × OutFrame) := []
  ctrlQueue  : List (Fin 24 × OutFrame) := []
  setpoints  : List (Fin 6 × OutFrame) := []
  fq12Drop   : Nat := 0
  fq21Drop   : Nat := 0
  screened   : Nat := 0
  deriving DecidableEq, Repr

/-! ## SAU -/

/-- Quality of a sampled or derived value (spec/00_scope.md, Quality). -/
inductive Quality where
  | good
  | questionable
  | invalid
  | held
  deriving DecidableEq, Repr

/-- A value with its quality: a slot value or a window sample. -/
structure Sample where
  value   : Int := 0
  quality : Quality := .invalid
  deriving DecidableEq, Repr

/-- The states of a stream (R34). -/
inductive StreamState where
  | off
  | seeking
  | filling
  | locked
  | holding
  | lost
  deriving DecidableEq, Repr

/-- The volatile state of a stream entry (R23). -/
structure StreamRec where
  state       : StreamState := .off
  fill        : Nat := 0
  missing     : Nat := 0
  outOfWindow : Nat := 0
  last        : Option Nat := none
  late        : Nat := 0
  duplicate   : Nat := 0
  malformed   : Nat := 0
  deriving DecidableEq, Repr

/-- An open slot of the alignment ring (R26). -/
structure Slot where
  values    : Vector Sample 96 := Vector.replicate 96 {}
  delivered : List (Fin 24) := []
  deriving DecidableEq, Repr

/-- The ring while RUNNING (R26): slot 0 is the oldest open slot. -/
structure Ring where
  oldest : Nat
  slots  : Vector Slot 16 := Vector.replicate 16 {}
  newest : Option Nat := none
  deriving DecidableEq, Repr

/-- The sample alignment unit; `ring` is none while the ring is IDLE, `silence` is the end of the silence timer. -/
structure Sau where
  streams : Vector StreamRec 24 := Vector.replicate 24 {}
  ring    : Option Ring := none
  silence : Option Count32 := none
  inst    : Count32 := 0
  deriving DecidableEq, Repr

/-! ## MEAS -/

/-- A peak phasor (R47). -/
structure Phasor where
  re : Int := 0
  im : Int := 0
  deriving DecidableEq, Repr

/-- A quantity's window (oldest first) and the results of the last instant (R42 to R48). -/
structure QuantityRec where
  window  : Vector Sample 80 := Vector.replicate 80 {}
  phasor  : Phasor := {}
  m2      : Nat := 0
  rms     : Nat := 0
  quality : Quality := .invalid
  prev    : Option (Phasor × Quality) := none
  lastAt  : Count32 := 0
  deriving DecidableEq, Repr

/-- The three phases. -/
inductive Phase where
  | a
  | b
  | c
  deriving DecidableEq, Repr

/-- A group's derived results (R50 to R56); `hist` holds the last four outcomes, oldest first. -/
structure GroupRec where
  resid    : Phasor := {}
  residM2  : Nat := 0
  residRms : Nat := 0
  residQ   : Quality := .invalid
  p        : Int := 0
  q        : Int := 0
  powerQ   : Quality := .invalid
  ref      : Option Phase := none
  df       : Int := 0
  dfQ      : Quality := .invalid
  hist     : List (Option (Int × Quality)) := []
  missing  : Nat := 4
  lastAt   : Count32 := 0
  deriving DecidableEq, Repr

/-- The measurement engine. -/
structure Meas where
  quantities : Vector QuantityRec 96 := Vector.replicate 96 {}
  groups     : Vector GroupRec 24 := Vector.replicate 24 {}
  deriving DecidableEq, Repr

/-! ## PROT -/

/-- The faulted phase of an element (R65). -/
inductive FaultPhase where
  | a
  | b
  | c
  | n
  | none
  deriving DecidableEq, Repr

/-- The forced state of an element (R65). -/
inductive ForcedElement where
  | none
  | operated
  | blocked
  deriving DecidableEq, Repr

/-- The volatile state of an element (R65); `included` is the zone members included at the last evaluation, which R68
asks for. -/
structure ElementRec where
  picked     : Bool := false
  phase      : FaultPhase := .none
  integrator : Nat := 0
  counter    : Nat := 0
  operated   : Bool := false
  forced     : ForcedElement := .none
  blocked    : Bool := false
  opCount    : Nat := 0
  lastAt     : Count32 := 0
  included   : List (Fin 10) := []
  deriving DecidableEq, Repr

/-- The protection unit; `maintPin` is the level of MAINT_IN, `maintIn` the level last sampled (R65, R81). -/
structure Prot where
  elements  : Vector ElementRec 32 := Vector.replicate 32 {}
  maintFlag : Bool := false
  maintPin  : Bool := false
  maintIn   : Bool := false
  deriving DecidableEq, Repr

/-! ## SWM -/

/-- A breaker position (R93). -/
inductive Position where
  | travelling
  | openPos
  | closed
  | defect
  | unknown
  deriving DecidableEq, Repr

/-- The forced overlay of a breaker (R93). -/
inductive ForcedBreaker where
  | none
  | openPos
  | closed
  deriving DecidableEq, Repr

/-- The blocks that hold claims (R102). -/
inductive Holder where
  | chg
  | par
  | mgt
  deriving DecidableEq, Repr

/-- The actions of a command (R5). -/
inductive Action where
  | openIt
  | closeIt
  deriving DecidableEq, Repr

/-- Who asked for an operation (R104): an element, the breaker failure of a breaker, or a block. -/
inductive Requester where
  | element (e : Fin 32)
  | failure (b : Fin 24)
  | block (h : Holder)
  deriving DecidableEq, Repr

/-- How a record ended (R93). -/
inductive RecordEnd where
  | none
  | done
  | failed
  | superseded
  deriving DecidableEq, Repr

/-- A command record (R107). `prot` is a protection OPEN; `bfEnd` the end of its breaker-failure timer, if it has one;
`tellChg` that CHG asked for it or joined it (R112). -/
structure CmdRecord where
  id         : Count16
  action     : Action
  prot       : Bool
  requester  : Requester
  issue      : Count32
  repeatNo   : Nat := 0
  nextRepeat : Count32
  opEnd      : Count32
  bfEnd      : Option Count32 := none
  bfOperated : Bool := false
  tellChg    : Bool := false
  deriving DecidableEq, Repr

/-- The state of a bus or of a generator side (R99). -/
inductive BusState where
  | live
  | dead
  | indeterminate
  deriving DecidableEq, Repr

/-- The volatile status of a breaker (R93). `ageFrom` is when the age restarted, `aged` that it has stopped at 3000;
`releasePending` a release that waits for a record's end (R103); `failedCfg` that the entry failed its checks at reset
(R119); `genSide` the generator side (R99). -/
structure BreakerRec where
  reported       : Position := .unknown
  forced         : ForcedBreaker := .none
  inLocal        : Bool := true
  spring         : Bool := false
  ageFrom        : Count32 := 0
  aged           : Bool := false
  claim          : Option Holder := none
  releasePending : Bool := false
  nextId         : Count16 := 0
  record         : Option CmdRecord := none
  outcome        : RecordEnd := .none
  failedCfg      : Bool := false
  genSide        : BusState := .indeterminate
  deriving DecidableEq, Repr

/-- The volatile state of a bus (R99). `prior` is the voltage group, as its entry carried it, that still measures the bus after a
WRITE until the next instant (R98). -/
structure BusRec where
  state  : BusState := .indeterminate
  lastAt : Count32 := 0
  prior  : Option Nat := none
  deriving DecidableEq, Repr

/-- A store write of SWM's or CHG's stored state (R205). -/
inductive StoreJob where
  | lockout (b : Fin 24) (v : Nat)
  | block (y : Fin 6) (v : Nat)
  | cause (c : Fin 5) (v : Nat)
  deriving DecidableEq, Repr

/-- The switchgear map; `jobs` are the state store writes in progress, oldest first. -/
structure Swm where
  breakers : Vector BreakerRec 24 := Vector.replicate 24 {}
  buses    : Vector BusRec 6 := Vector.replicate 6 {}
  jobs     : List StoreJob := []
  deriving DecidableEq, Repr

/-! ## CHG -/

/-- The states of a source (R121). -/
inductive SourceState where
  | unknown
  | healthy
  | failing
  | failed
  | returning
  deriving DecidableEq, Repr

/-- The judgement of a source (R122). -/
inductive Judgement where
  | healthy
  | unhealthy
  | undetermined
  deriving DecidableEq, Repr

/-- A source's timer (R121, R125): counting to its end, or suspended with its remaining time. -/
inductive SourceTimer where
  | none
  | running (loss : Bool) (deadline : Count32)
  | suspended (loss : Bool) (remaining : Nat)
  deriving DecidableEq, Repr

/-- The volatile state of a source (R121). -/
structure SourceRec where
  state      : SourceState := .unknown
  judgement  : Judgement := .undetermined
  timer      : SourceTimer := .none
  marks      : Nat := 0
  noted      : Bool := false
  changeMs   : Count32 := 0
  changeInst : Count32 := 0
  deriving DecidableEq, Repr

/-- The causes, in the order of their codes (R128). -/
inductive Cause where
  | lossA
  | lossB
  | lossBoth
  | returnA
  | returnB
  deriving DecidableEq, Repr

/-- CHG's own states (R130). -/
inductive ChgState where
  | settling
  | idle
  | running
  | failed
  | inhibited
  deriving DecidableEq, Repr

/-- The phases of a step (R131). -/
inductive StepPhase where
  | claiming
  | waitingBreaker
  | requested
  | synchronising
  | waiting
  | timing
  deriving DecidableEq, Repr

/-- The result of a transfer (R131). -/
inductive TransferResult where
  | running
  | done
  | failed
  | aborted
  deriving DecidableEq, Repr

/-- Why a scheme failed (R131). -/
inductive FailReason where
  | none
  | refused
  | recordFailed
  | superseded
  | claimConflict
  | breakerBusy
  | syncTimeout
  | awaitTimeout
  | overlap
  deriving DecidableEq, Repr

/-- SWM's refusal reasons, in the order of their codes (R104, R216). -/
inductive Refused where
  | none
  | mode
  | claimed
  | busy
  | lockout
  | inLocal
  | spring
  | notOpen
  | permissive
  | blocked
  | indeterminate
  | noSync
  | notDeadBus
  deriving DecidableEq, Repr

/-- A source set (R142). -/
structure SourceSet where
  a   : Bool := false
  b   : Bool := false
  gen : Bool := false
  deriving DecidableEq, Repr

/-- The transfer record (R131). `entry` is the scheme as it stood at its start (R129); `waitEnd` the deadline of a
WAITING_BREAKER step and `busy` whether its last answer was BUSY; `deadline` the step's own deadline (sync timeout, await
timeout or delay); `set1` and `set2` the source sets a CLOSE_SYNC keeps (R137). -/
structure Transfer where
  scheme     : Fin 8
  cause      : Option Cause
  startMs    : Count32
  startInst  : Count32
  entry      : SchemeEntry
  index      : Nat := 0
  stepStart  : Count32
  phase      : StepPhase := .claiming
  waitEnd    : Option Count32 := none
  busy       : Bool := false
  deadline   : Option Count32 := none
  cmdId      : Option Count16 := none
  set1       : SourceSet := {}
  set2       : SourceSet := {}
  result     : TransferResult := .running
  reason     : FailReason := .none
  refusal    : Refused := .none
  deriving DecidableEq, Repr

/-- The overlap record (R143). -/
structure Overlap where
  breaker     : Fin 24
  set1        : SourceSet
  set2        : SourceSet
  scheme      : Fin 8
  limit       : Nat
  tripBreaker : Nat
  start       : Count32
  expiry      : Count32
  deriving DecidableEq, Repr

/-- The changeover sequencer; `sourceA` and `sourceB` are the source records. -/
structure Chg where
  state    : ChgState := .settling
  inhibit  : Bool := false
  sourceA  : SourceRec := {}
  sourceB  : SourceRec := {}
  transfer : Option Transfer := none
  pending  : List Cause := []
  claims   : List (Fin 24) := []
  overlap  : Option Overlap := none
  deriving DecidableEq, Repr

/-! ## PAR -/

/-- The states of a set (R156). -/
inductive GenState where
  | stopped
  | starting
  | available
  | deadBusWait
  | syncWait
  | syncing
  | closing
  | onBus
  | unloading
  | unloadHeld
  | opening
  | cooldown
  | stopping
  | failed
  deriving DecidableEq, Repr

/-- The engine states (R154). -/
inductive Engine where
  | stopped
  | cranking
  | running
  | fault
  | unknown
  deriving DecidableEq, Repr

/-- The failure reasons (R177). -/
inductive GenReason where
  | none
  | start
  | sync
  | close
  | tripped
  | engine
  | controllerLost
  | opened
  | openFailed
  | manual
  deriving DecidableEq, Repr

/-- A genset record (R154). `timer` is the end of the start, sync or cooldown timer; `wantClaim` that a claim refused
CLAIMED is asked again (R157); `openOnDone` that an OPEN follows the CLOSE record of a failed set (R178). -/
structure GenRec where
  state      : GenState := .stopped
  engine     : Engine := .unknown
  ready      : Bool := false
  manual     : Bool := true
  ageFrom    : Count32 := 0
  aged       : Bool := false
  speed      : Int := 0
  volt       : Int := 0
  load       : Int := 0
  reactive   : Int := 0
  timer      : Option Count32 := none
  reason     : GenReason := .none
  cmdId      : Option Count16 := none
  wantClaim  : Bool := false
  openOnDone : Bool := false
  deriving DecidableEq, Repr

/-- The bus request of CHG (R137, R164): the breaker, the two groups (absent when a side bus has none), and whether all
ON_BUS sets are adjusted. -/
structure BusRequest where
  breaker  : Fin 24
  refGroup : Option (Fin 24)
  inGroup  : Option (Fin 24)
  adjust   : Bool
  deriving DecidableEq, Repr

/-- A request in service: CHG's bus request or a generator's (R164). -/
inductive SyncReq where
  | bus (r : BusRequest)
  | gen (g : Fin 6)
  deriving DecidableEq, Repr

/-- The result of the vector window test (R57). -/
inductive VectorResult where
  | invalid
  | inside
  | outside
  deriving DecidableEq, Repr

/-- The synchroniser (R164 to R168). `slipOk` and `voltOk` say whether the latest slip and voltage difference were formed
from valid values. -/
structure Sync where
  served   : Option SyncReq := none
  accepted : Bool := false
  met      : Nat := 0
  slip     : Int := 0
  slipOk   : Bool := false
  dv       : Int := 0
  voltOk   : Bool := false
  vector   : VectorResult := .invalid
  lastMet  : Count32 := 0
  deriving DecidableEq, Repr

/-- The paralleling unit. `busWaiting` is a bus request waiting for the synchroniser; the waiting generator requests are
the sets in SYNC_WAIT. `firstPeriod` is when the first setpoint period falls due. -/
structure Par where
  settled     : Bool := false
  gens        : Vector GenRec 6 := Vector.replicate 6 {}
  demand      : Nat := 0
  grant       : Option (Fin 6) := none
  sync        : Sync := {}
  busWaiting  : Option BusRequest := none
  islanded    : Bool := false
  firstPeriod : Count32 := 0
  periods     : Count32 := 0
  deriving DecidableEq, Repr

/-! ## CAP -/

/-- The states of CAP (R187). -/
inductive CapState where
  | off
  | armed
  | post
  | stalled
  deriving DecidableEq, Repr

/-- The kinds of a trigger (R188). -/
inductive TriggerKind where
  | element
  | transfer
  | gen
  | manual
  deriving DecidableEq, Repr

/-- An entry of a record's trigger list (R190). -/
structure TriggerEntry where
  kind    : TriggerKind
  subject : Nat
  inst    : Count32
  ms      : Count32
  offset  : Nat
  deriving DecidableEq, Repr

/-- A capture record (R189, R192); `worst` is empty until the record is stored. -/
structure CapRecord where
  area      : Fin 4
  gen       : Count16
  recording : Bool := true
  firstInst : Count32
  firstMs   : Count32
  count     : Nat := 1
  triggers  : List TriggerEntry
  start     : Nat
  length    : Nat
  pre       : Nat
  post      : Nat
  channels  : List Nat
  worst     : List Quality := []
  locked    : Bool := false
  deriving DecidableEq, Repr

/-- The capture unit. `mem` holds the words of capture memory that are not 0, by rising address; `summaries` the quality
summaries of the row-sets written since arming, by row-set; `lastArmed` the area armed last since reset. -/
structure Cap where
  mem       : List (Nat × CapWord) := []
  gens      : Vector Count16 4 := Vector.replicate 4 0
  state     : CapState := .off
  area      : Fin 4 := 0
  lastArmed : Option (Fin 4) := none
  row       : Nat := 0
  phase     : Nat := 0
  filled    : Nat := 0
  summaries : List (Nat × List Quality) := []
  records   : List CapRecord := []
  ignored   : Nat := 0
  deriving DecidableEq, Repr

/-! ## MGT -/

/-- The modes (R213). -/
inductive Mode where
  | inService
  | test
  | service
  deriving DecidableEq, Repr

/-- A management request (R199): its arrival port, originator, code, tag and parameters. -/
structure Request where
  port   : Port
  src    : Nat
  code   : Nat
  tag    : Nat
  params : List Byte
  deriving DecidableEq, Repr

/-- A piece of response data that is gathered when its bytes are built into a segment (R203, R208). -/
inductive Item where
  | bytes (bs : List Byte)
  | record (area : Nat) (idx : Nat)
  | watch (area : Nat) (idx : Nat) (field : Nat)
  deriving DecidableEq, Repr

/-- What is left to read of a CAPTURE_READ response (R194). -/
structure CapRead where
  area      : Nat
  gen       : Nat
  channel   : Nat
  next      : Nat
  remaining : Nat
  deriving DecidableEq, Repr

/-- A response being sent: the data still to gather, the bytes gathered and not yet sent, and the next segment index;
`placed` says that the last segment has been placed, `owed` that it answers a WRITE whose store write has begun, which an ABORT
leaves to be answered (R217). -/
structure Response where
  result  : Nat
  items   : List Item := []
  carry   : List Byte := []
  capture : Option CapRead := none
  index   : Nat := 0
  placed  : Bool := false
  restart : Bool := false
  owed    : Bool := false
  deriving DecidableEq, Repr

/-- How far the request in service has come (R200): being acted on, a WRITE whose store write runs (the area, the first
record and the records' fields), or sending its response. -/
inductive Stage where
  | acting
  | storing (area : Nat) (first : Nat) (records : List (List Int))
  | sending (r : Response)
  deriving DecidableEq, Repr

/-- The request in service (R200). -/
structure Service where
  req   : Request
  stage : Stage
  deriving DecidableEq, Repr

/-- The selection (R210). -/
structure Selection where
  owner  : Nat
  target : Nat
  object : Nat
  since  : Count32
  deriving DecidableEq, Repr

/-- An item of the watch list (R208). -/
structure WatchItem where
  area  : Nat
  idx   : Nat
  field : Nat
  deriving DecidableEq, Repr

/-- The errors, in the order of their codes 1 to 11 (R214). -/
inductive ErrorCode where
  | streamLost
  | streamsSilent
  | operateTimeout
  | bfOperated
  | overlapExceeded
  | schemeFailed
  | genFailed
  | sourceIndeterminate
  | noticeOverflow
  | settingsInvalid
  | storeFault
  deriving DecidableEq, Repr

/-- An entry of the error list (R214); the subject 0xFFFF is none. -/
structure ErrorEntry where
  code    : ErrorCode
  subject : Nat
  firstMs : Count32
  lastMs  : Count32
  count   : Nat
  deriving DecidableEq, Repr

/-- A notice in the notice queue (R216): its kind code, subject and detail bytes with the times MGT added. -/
structure Notice where
  kind    : Nat
  subject : Nat
  ms      : Count32
  inst    : Count32
  detail  : List Byte
  deriving DecidableEq, Repr

/-- The management responder. `restartDue` says that a RESTART's response has gone and its reset is to begin (R212);
`tableFailed` that a stored table failed validation at the last reset (R202). -/
structure Mgt where
  queue       : List Request := []
  service     : Option Service := none
  selection   : Option Selection := none
  watch       : List WatchItem := []
  errors      : List ErrorEntry := []
  notices     : List Notice := []
  dropped     : Nat := 0
  restartDue  : Bool := false
  tableFailed : Bool := false
  deriving DecidableEq, Repr

/-! ## The device and the state -/

/-- A report from one block to another, or a piece of work a block still owes, not yet taken. The list of them is empty
between commands (notes/assumptions/6.md). -/
inductive Report where
  /-- SWM: the effective position of a breaker has changed (R94). -/
  | position (b : Fin 24)
  /-- SWM: a bus has changed its state (R99). -/
  | bus (y : Fin 6) (old : BusState)
  /-- SWM: the claim on a breaker has been released (R102). -/
  | claimReleased (b : Fin 24)
  /-- SWM: a record of CHG's or PAR's has ended (R112). -/
  | recordEnded (h : Holder) (b : Fin 24) (id : Count16) (a : Action) (e : RecordEnd)
  /-- SWM: a protection OPEN that CHG asked for or joined has ended (R112). -/
  | protOpenEnded (b : Fin 24) (id : Count16) (a : Action) (e : RecordEnd)
  /-- SWM: a protection OPEN of a GEN breaker has ended DONE (R112). -/
  | genTripDone (b : Fin 24)
  /-- SWM: a deferred release of a breaker is to be looked at again (R103). -/
  | releaseDue (b : Fin 24)
  /-- PROT: an element marks a source unhealthy, or withdraws its mark (R86). -/
  | mark (u : Utility) (on : Bool)
  /-- PAR: a set has entered or left ON_BUS (R169). -/
  | onBusChanged
  /-- PAR: the synchroniser's result for CHG's bus request (R166). -/
  | syncResult (b : Fin 24) (first : Count32) (second : Count32)
  /-- PAR: demand is to be met again (R160). -/
  | meetDemand
  /-- PAR: the dead-bus grant is to be judged (R161). -/
  | judgeGrant
  /-- PAR: a free synchroniser is to be examined (R164). -/
  | examineSync
  deriving DecidableEq, Repr

/-- The device while it runs: its clock, mode and straps, the stored tables as the blocks use them, the blocks, the reports
not yet taken, and the count of ties met (notes/assumptions/2.md). -/
structure Dev where
  now  : Count32 := 0
  mode : Mode := .service
  f60  : Bool := false
  nomf : Bool := false
  mgw  : Bool := false
  tab  : Tables := {}
  lnk  : Lnk := {}
  sau  : Sau := {}
  meas : Meas := {}
  prot : Prot := {}
  swm  : Swm := {}
  chg  : Chg := {}
  par  : Par := {}
  cap  : Cap := {}
  mgt  : Mgt := {}
  work : List Report := []
  ties : Nat := 0
  deriving DecidableEq, Repr

/-- Whether the part is running, in reset, or without auxiliary supply (R21). In the last two the ports are joined. -/
inductive Power where
  | running
  | inReset
  | noSupply
  deriving DecidableEq, Repr

/-- The machine: the commands that wait, first in first out; the power state; the level of RESET_N; the non-volatile store;
and the device. -/
structure State where
  pending : List Instr := []
  power   : Power := .running
  resetN  : Bool := true
  nv      : Tables := {}
  dev     : Dev := {}
  deriving DecidableEq, Repr

/-- Why a command stops. The manual describes no event that stops the part: an invalid frame is counted, an invalid request
is answered, an error is recorded. So there is no fault, and no command can raise one. Safe. -/
inductive Fault where
  deriving DecidableEq, Repr

/-- Why a command is refused. -/
inductive Refusal where
  /-- Raised by an arm of `exec` whose command has no meaning yet. Safe: the model stops. -/
  | notModelled (mnemonic : String)
  deriving DecidableEq, Repr

/-- The machine right after reset (R21, R39, R62, R90, R119, R150, R182, R198, R218): the store never written, NOMF sampled
at 50 Hz, MGW sampled inactive, both links sensed UP (notes/assumptions/4.md), every volatile field at its value after
reset, nothing queued. -/
def State.reset : State := {}

end Sys2Proof.Machine
end

