-- ==== Sys2Proof/Machine/Ops.lean ====
section
/-!
DEFINITION. Sys2Proof/Machine/Ops.lean: the named operations that every block uses: tables by id, exact arithmetic (R1),
the clock (spec/00_scope.md, Time), bytes (spec/00_scope.md, Addresses and byte order), the capture memory (R183), and the
small accessors of the device.
-/
namespace Sys2Proof.Machine

/-! ## Tables -/

/-- The entry of a table at an id. -/
def tget {α : Type} {n : Nat} (v : Vector α n) (i : Fin n) : α := v[i.val]

/-- The table with the entry at an id replaced. -/
def tset {α : Type} {n : Nat} (v : Vector α n) (i : Fin n) (x : α) : Vector α n := v.set i.val x

/-- The table with the entry at an id changed. -/
def tmod {α : Type} {n : Nat} (v : Vector α n) (i : Fin n) (f : α → α) : Vector α n := tset v i (f (tget v i))

/-- An id read from a stored field, if it is in range. -/
def toId (n : Nat) (x : Nat) : Option (Fin n) := if h : x < n then some ⟨x, h⟩ else none

/-- A number in a closed range. -/
def within (lo hi x : Nat) : Bool := decide (lo ≤ x ∧ x ≤ hi)

/-- The numbers of a list are distinct. -/
def distinct (xs : List Nat) : Bool := decide xs.Nodup

/-- The first id, in rising order, that satisfies a test. -/
def firstId (n : Nat) (p : Fin n → Bool) : Option (Fin n) := (List.finRange n).find? p

/-- An id list without repeats, in rising order, of the ids that satisfy a test. -/
def idsWhere (n : Nat) (p : Fin n → Bool) : List (Fin n) := (List.finRange n).filter p

/-- Applies an operation for each id of a list, in order. -/
def forEach {α β : Type} (xs : List α) (f : α → β → β) (b : β) : β := xs.foldl (fun acc x => f x acc) b

/-- The bit mask of a set of ids (R202). -/
def maskOf {n : Nat} (ids : List (Fin n)) : Nat := (idsWhere n (fun i => ids.contains i)).foldl (fun m i => m + 2 ^ i.val) 0

/-- 1 for true and 0 for false. -/
def bit (b : Bool) : Nat := if b then 1 else 0

/-! ## Arithmetic (R1) -/

/-- Division by a positive divisor, rounded to the nearest integer, halves away from zero. -/
def roundDiv (a : Int) (d : Nat) : Int :=
  if 0 ≤ a then (((2 * a.toNat + d) / (2 * d) : Nat) : Int)
  else -(((2 * (-a).toNat + d) / (2 * d) : Nat) : Int)

/-- Integer division, truncated toward zero. -/
def truncDiv (a b : Int) : Int := Int.tdiv a b

/-- A value held within a range. -/
def clamp (lo hi x : Int) : Int := if x < lo then lo else if hi < x then hi else x

/-- The floored square root, found bit by bit from bit `k - 1` down, starting from `r`. -/
def isqrtFrom (n : Nat) : Nat → Nat → Nat
  | 0, r => r
  | k + 1, r => isqrtFrom n k (if (r + 2 ^ k) * (r + 2 ^ k) ≤ n then r + 2 ^ k else r)

/-- The floored integer square root of a number below 2^64 (R1, R48). -/
def isqrt (n : Nat) : Nat := isqrtFrom n 32 0

/-- A counter that saturates at 4,294,967,295, incremented. -/
def sat32 (n : Nat) : Nat := min (n + 1) Config.saturate32

/-- A counter that saturates at 65,535, incremented. -/
def sat16 (n : Nat) : Nat := min (n + 1) Config.saturate16

/-! ## The clock -/

/-- The end of a timer that starts at `t` and runs for `ms` (modulo 2^32). -/
def after (t : Count32) (ms : Nat) : Count32 := t + BitVec.ofNat 32 ms

/-- The clock has reached a deadline: the span from the deadline to the clock is less than 2^31 ms. -/
def reached (deadline now : Count32) : Bool := decide ((now - deadline).toNat < 2 ^ 31)

/-- The time left to a deadline, 0 once it is reached. -/
def timeLeft (deadline now : Count32) : Nat := if reached deadline now then 0 else (deadline - now).toNat

/-- A deadline that may be absent has been reached. -/
def reached? (deadline : Option Count32) (now : Count32) : Bool :=
  match deadline with
  | some t => reached t now
  | none => false

/-! ## Bytes -/

/-- An integer in two's complement at a width in bytes, most significant byte first. -/
def beBytes : Nat → Int → List Byte
  | 0, _ => []
  | w + 1, v => BitVec.ofInt 8 (v / (256 : Int) ^ w) :: beBytes w v

/-- The unsigned number that bytes spell, most significant byte first. -/
def natOfBytes (bs : List Byte) : Nat := bs.foldl (fun acc b => acc * 256 + b.toNat) 0

/-- The two's complement number that bytes spell. -/
def intOfBytes (bs : List Byte) : Int :=
  let n := natOfBytes bs
  if n < 2 ^ (8 * bs.length - 1) then (n : Int) else (n : Int) - (2 : Int) ^ (8 * bs.length)

/-- The bytes of a body from an offset, at a width. -/
def slice (bs : List Byte) (offset width : Nat) : List Byte := (bs.drop offset).take width

/-- The unsigned field of a body at an offset and width. -/
def field (bs : List Byte) (offset width : Nat) : Nat := natOfBytes (slice bs offset width)

/-- The signed field of a body at an offset and width. -/
def signedField (bs : List Byte) (offset width : Nat) : Int := intOfBytes (slice bs offset width)

/-! ## The capture memory

A list of (address, word) pairs by rising address in which no word is 0: an unlisted address reads as 0, the value of every
word after reset (R183). -/

/-- The word at an address. -/
def memRead : List (Nat × CapWord) → Nat → CapWord
  | [], _ => 0
  | (a, w) :: rest, x => if a = x then w else if x < a then 0 else memRead rest x

/-- The memory with the word at an address written. -/
def memWrite : List (Nat × CapWord) → Nat → CapWord → List (Nat × CapWord)
  | [], x, v => if v = 0 then [] else [(x, v)]
  | (a, w) :: rest, x, v =>
    if x < a then (if v = 0 then (a, w) :: rest else (x, v) :: (a, w) :: rest)
    else if x = a then (if v = 0 then rest else (x, v) :: rest)
    else (a, w) :: memWrite rest x v

/-- The canonical form: addresses strictly rising from a bound on, and no word 0. -/
def memWfFrom : Nat → List (Nat × CapWord) → Bool
  | _, [] => true
  | lo, (a, w) :: rest => decide (lo ≤ a) && decide (w ≠ 0) && memWfFrom (a + 1) rest

/-- The capture memory is in its canonical form. -/
def Memory.wf (m : List (Nat × CapWord)) : Bool := memWfFrom 0 m

/-! ## The device -/

/-- The record of a port. -/
def Lnk.port (l : Lnk) : Port → PortRec
  | .p1 => l.p1
  | .p2 => l.p2

/-- The link unit with the record of a port changed. -/
def Lnk.modPort (l : Lnk) (p : Port) (f : PortRec → PortRec) : Lnk :=
  match p with
  | .p1 => { l with p1 := f l.p1 }
  | .p2 => { l with p2 := f l.p2 }

/-- The device with the record of a port changed. -/
def Dev.modPort (d : Dev) (p : Port) (f : PortRec → PortRec) : Dev := { d with lnk := d.lnk.modPort p f }

/-- The device with the counters of a port changed. -/
def Dev.modCounters (d : Dev) (p : Port) (f : PortCounters → PortCounters) : Dev :=
  d.modPort p (fun r => { r with counters := f r.counters })

/-- The device with the state of a stream changed. -/
def Dev.modStream (d : Dev) (i : Fin 24) (f : StreamRec → StreamRec) : Dev :=
  { d with sau := { d.sau with streams := tmod d.sau.streams i f } }

/-- The device with the state of an element changed. -/
def Dev.modElement (d : Dev) (e : Fin 32) (f : ElementRec → ElementRec) : Dev :=
  { d with prot := { d.prot with elements := tmod d.prot.elements e f } }

/-- The device with the status of a breaker changed. -/
def Dev.modBreaker (d : Dev) (b : Fin 24) (f : BreakerRec → BreakerRec) : Dev :=
  { d with swm := { d.swm with breakers := tmod d.swm.breakers b f } }

/-- The device with the record of a bus changed. -/
def Dev.modBus (d : Dev) (y : Fin 6) (f : BusRec → BusRec) : Dev :=
  { d with swm := { d.swm with buses := tmod d.swm.buses y f } }

/-- The device with the record of a set changed. -/
def Dev.modGen (d : Dev) (g : Fin 6) (f : GenRec → GenRec) : Dev :=
  { d with par := { d.par with gens := tmod d.par.gens g f } }

/-- The device with MGT's state changed. -/
def Dev.modMgt (d : Dev) (f : Mgt → Mgt) : Dev := { d with mgt := f d.mgt }

/-- The status of a breaker. -/
def Dev.breaker (d : Dev) (b : Fin 24) : BreakerRec := tget d.swm.breakers b
/-- The stored entry of a breaker. -/
def Dev.breakerCfg (d : Dev) (b : Fin 24) : BreakerEntry := tget d.tab.breakers b
/-- The record of a bus. -/
def Dev.bus (d : Dev) (y : Fin 6) : BusRec := tget d.swm.buses y
/-- The stored entry of a bus. -/
def Dev.busCfg (d : Dev) (y : Fin 6) : BusEntry := tget d.tab.buses y
/-- The record of a set. -/
def Dev.gen (d : Dev) (g : Fin 6) : GenRec := tget d.par.gens g
/-- The stored entry of a set. -/
def Dev.genCfg (d : Dev) (g : Fin 6) : GenEntry := tget d.tab.gens g
/-- The state of an element. -/
def Dev.element (d : Dev) (e : Fin 32) : ElementRec := tget d.prot.elements e
/-- The stored entry of an element. -/
def Dev.elementCfg (d : Dev) (e : Fin 32) : ElementEntry := tget d.tab.elements e
/-- The results of a quantity. -/
def Dev.quantity (d : Dev) (q : Fin 96) : QuantityRec := tget d.meas.quantities q
/-- The results of a group. -/
def Dev.group (d : Dev) (g : Fin 24) : GroupRec := tget d.meas.groups g
/-- The stored entry of a group. -/
def Dev.groupCfg (d : Dev) (g : Fin 24) : GroupEntry := tget d.tab.groups g

/-- A source record of CHG. -/
def Chg.source (c : Chg) : Utility → SourceRec
  | .a => c.sourceA
  | .b => c.sourceB

/-- CHG with a source record changed. -/
def Chg.modSource (c : Chg) (u : Utility) (f : SourceRec → SourceRec) : Chg :=
  match u with
  | .a => { c with sourceA := f c.sourceA }
  | .b => { c with sourceB := f c.sourceB }

/-- The id of a utility: 0 for A and 1 for B. -/
def utilityId : Utility → Fin 2
  | .a => 0
  | .b => 1

/-- A report or a piece of owed work joins the list of those not yet taken. -/
def Dev.push (r : Report) (d : Dev) : Dev := { d with work := d.work ++ [r] }

/-- The free outcome of the next tie (notes/assumptions/2.md), and the device with the tie counted. -/
def Dev.drawTie (d : Dev) : Bool × Dev := (Config.tie d.ties, { d with ties := d.ties + 1 })

end Sys2Proof.Machine
end

