-- ==== Sys2Proof/Machine/Operands.lean ====
section
/-!
DEFINITION. Sys2Proof/Machine/Operands.lean: the operand forms of the link, that is the Bayline header (R4), the bodies of
the eight frame kinds with their permitted lengths and field codes (R5), the codes of the enumerated values, and the frames
the part builds (R19).
-/
namespace Sys2Proof.Machine

/-! ## Codes -/

/-- The sample quality codes of R5. -/
def sampleQuality (n : Nat) : Option Quality :=
  if n = 0 then some .good else if n = 1 then some .questionable else if n = 2 then some .invalid else none

/-- The quality codes of area records (R202). -/
def Quality.code : Quality → Nat
  | .good => 0
  | .questionable => 1
  | .invalid => 2
  | .held => 3

/-- The position codes of a STATUS frame (R5). -/
def statusPosition (n : Nat) : Option Position :=
  if n = 0 then some .travelling else if n = 1 then some .openPos else if n = 2 then some .closed
  else if n = 3 then some .defect else none

/-- The engine state codes of a GENSET frame (R5). -/
def gensetEngine (n : Nat) : Option Engine :=
  if n = 0 then some .stopped else if n = 1 then some .cranking else if n = 2 then some .running
  else if n = 3 then some .fault else none

/-- The codes of an action (R5). -/
def Action.code : Action → Nat
  | .openIt => 0
  | .closeIt => 1

/-- The codes of a command's origin (R5, R107): PROT for a protection OPEN, otherwise the requester. -/
def CmdRecord.originCode (r : CmdRecord) : Nat :=
  if r.prot then 0
  else match r.requester with
    | .block .chg => 1
    | .block .par => 2
    | .block .mgt => 3
    | _ => 0

/-! ## Results of management requests (R5) -/

/-- OK. -/
def resOk : Nat := 0
/-- RANGE. -/
def resRange : Nat := 1
/-- LENGTH. -/
def resLength : Nat := 2
/-- NOT_WRITABLE. -/
def resNotWritable : Nat := 3
/-- WRITE_DISABLED. -/
def resWriteDisabled : Nat := 4
/-- LOCKED. -/
def resLocked : Nat := 5
/-- INVALID. -/
def resInvalid : Nat := 6
/-- BUSY. -/
def resBusy : Nat := 7
/-- CLAIMED. -/
def resClaimed : Nat := 8
/-- NOT_PERMITTED. -/
def resNotPermitted : Nat := 9
/-- NOT_SELECTED. -/
def resNotSelected : Nat := 10
/-- SELECT_CONFLICT. -/
def resSelectConflict : Nat := 11
/-- STALE. -/
def resStale : Nat := 12
/-- UNKNOWN_REQUEST. -/
def resUnknown : Nat := 13

/-! ## Frames received -/

/-- The Bayline header fields that classification uses (R4). -/
structure Header where
  dest   : Nat
  source : Nat
  kind   : Nat
  len    : Nat
  deriving DecidableEq, Repr

/-- The header of a payload of at least 10 bytes (R3, R4). -/
def parseHeader (bs : List Byte) : Header :=
  { dest := field bs 0 2, source := field bs 2 2, kind := field bs 4 1, len := field bs 8 2 }

/-- The body of a well-formed frame (R5), by kind. -/
inductive Body where
  | sample (count : Nat) (qualities : List Quality) (values : List Int)
  | status (pos : Position) (spring : Bool) (inLocal : Bool)
  | command (id : Nat) (action : Action)
  | genset (engine : Engine) (ready : Bool) (manual : Bool)
  | setpoint
  | request (code : Nat) (tag : Nat) (params : List Byte)
  | response
  | notice
  deriving DecidableEq, Repr

/-- The qualities of a SAMPLE body with `n` channels, absent when one of them is no listed code. -/
def sampleQualities (b : List Byte) (n : Nat) : Option (List Quality) :=
  (List.range n).mapM (fun i => sampleQuality (field b (3 + i) 1))

/-- The SAMPLE body (R5): the count below C, 1 to 8 channels, the length 3 + 5n and listed qualities. -/
def sampleBody (c : Nat) (b : List Byte) : Option Body :=
  let n := field b 2 1
  if 3 ≤ b.length ∧ 1 ≤ n ∧ n ≤ 8 ∧ b.length = 3 + 5 * n ∧ field b 0 2 < c then
    (sampleQualities b n).map (fun qs =>
      .sample (field b 0 2) qs ((List.range n).map (fun i => signedField b (3 + n + 4 * i) 4)))
  else none

/-- The STATUS body (R5). -/
def statusBody (b : List Byte) : Option Body :=
  if b.length = 3 ∧ field b 1 1 ≤ 1 ∧ field b 2 1 ≤ 1 then
    (statusPosition (field b 0 1)).map (fun p => .status p (field b 1 1 == 1) (field b 2 1 == 1))
  else none

/-- The COMMAND body (R5). -/
def commandBody (b : List Byte) : Option Body :=
  if b.length = 5 ∧ field b 2 1 ≤ 1 ∧ field b 3 1 ≤ 4 then
    some (.command (field b 0 2) (if field b 2 1 = 0 then .openIt else .closeIt))
  else none

/-- The GENSET body (R5). -/
def gensetBody (b : List Byte) : Option Body :=
  if b.length = 3 ∧ field b 1 1 ≤ 1 ∧ field b 2 1 ≤ 1 then
    (gensetEngine (field b 0 1)).map (fun e => .genset e (field b 1 1 == 1) (field b 2 1 == 1))
  else none

/-- The SETPOINT body (R5). -/
def setpointBody (b : List Byte) : Option Body :=
  if b.length = 5 ∧ field b 0 1 ≤ 1 ∧ -500 ≤ signedField b 1 2 ∧ signedField b 1 2 ≤ 500
      ∧ -1000 ≤ signedField b 3 2 ∧ signedField b 3 2 ≤ 1000 then some .setpoint
  else none

/-- The MGMT-REQ body (R5): 3 to 1490 bytes; an unknown request code is well formed. -/
def requestBody (b : List Byte) : Option Body :=
  if 3 ≤ b.length ∧ b.length ≤ 1490 then some (.request (field b 0 1) (field b 1 2) (b.drop 3)) else none

/-- The MGMT-RSP body (R5). -/
def responseBody (b : List Byte) : Option Body :=
  if 5 ≤ b.length ∧ b.length ≤ 1029 ∧ field b 3 1 ≤ 13 then some .response else none

/-- The NOTICE body (R5). -/
def noticeBody (b : List Byte) : Option Body :=
  if b.length = 15 ∧ 1 ≤ field b 0 1 ∧ field b 0 1 ≤ 8 then some .notice else none

/-- What a Bayline payload of at least 10 bytes holds, given C (R5): malformed, of an unknown kind, or a body. A frame of an
unknown kind has no permitted lengths or fields, so only its declared length is checked (notes/assumptions/10.md). -/
inductive Content where
  | malformed
  | unknownKind
  | body (b : Body)
  deriving DecidableEq, Repr

/-- The body of a kind. -/
def bodyOf (c kind : Nat) (b : List Byte) : Option Body :=
  match kind with
  | 1 => sampleBody c b
  | 2 => statusBody b
  | 3 => commandBody b
  | 4 => gensetBody b
  | 5 => setpointBody b
  | 6 => requestBody b
  | 7 => responseBody b
  | 8 => noticeBody b
  | _ => none

/-- Whether a payload is well formed, and what it then holds (R5). -/
def content (c : Nat) (h : Header) (payload : List Byte) : Content :=
  if payload.length < 10 + h.len then .malformed
  else if h.kind = 0 ∨ 8 < h.kind then .unknownKind
  else match bodyOf c h.kind (slice payload 10 h.len) with
    | some b => .body b
    | none => .malformed

/-! ## Frames sent -/

/-- The flags byte of a frame the part originates (R4, R19). -/
def OutFrame.flags (f : OutFrame) : Nat := bit f.test * 128 + bit f.segLast * 64

/-- The payload of a frame with its sequence value (R4). -/
def OutFrame.payload (f : OutFrame) (seq : Count16) : List Byte :=
  beBytes 2 f.dest ++ beBytes 2 f.src ++ beBytes 1 f.kind ++ beBytes 1 f.flags ++ beBytes 2 seq.toNat
    ++ beBytes 2 f.body.length ++ f.body

/-- The Ethernet frame that carries a frame of the part's own out of a port (R3, R19). -/
def OutFrame.toEth (f : OutFrame) (p : Port) (seq : Count16) : EthFrame :=
  { checkOk := true, dst := Config.ethBroadcast, src := Config.portEthernetAddress p,
    etherType := Config.baylineType, payload := f.payload seq }

/-- A frame built now: its source is the station address in force and its TEST flag the mode of the moment (R19). -/
def Dev.build (d : Dev) (dest kind : Nat) (segLast : Bool) (body : List Byte) : OutFrame :=
  { dest := dest, src := d.tab.device.station, kind := kind, test := decide (d.mode = .test), segLast := segLast,
    body := body }

/-- The COMMAND frame of a breaker's record (R5, R108). -/
def Dev.commandFrame (d : Dev) (b : Fin 24) (r : CmdRecord) : OutFrame :=
  d.build (d.breakerCfg b).addr 3 false
    (beBytes 2 r.id.toNat ++ beBytes 1 r.action.code ++ beBytes 1 r.originCode ++ beBytes 1 r.repeatNo)

/-- A SETPOINT frame to a set's controller (R5, R176). -/
def Dev.setpointFrame (d : Dev) (g : Fin 6) (run : Bool) (speed volt : Int) : OutFrame :=
  d.build (d.genCfg g).addr 5 false (beBytes 1 (bit run) ++ beBytes 2 speed ++ beBytes 2 volt)

/-- The NOTICE frame of a notice, built when it is taken (R216). -/
def Dev.noticeFrame (d : Dev) (n : Notice) : OutFrame :=
  d.build d.tab.device.notice 8 false
    (beBytes 1 n.kind ++ beBytes 2 n.subject ++ beBytes 4 n.ms.toNat ++ beBytes 4 n.inst.toNat ++ n.detail)

/-- A MGMT-RSP segment (R5, R200). -/
def Dev.segmentFrame (d : Dev) (req : Request) (result index : Nat) (last : Bool) (data : List Byte) : OutFrame :=
  d.build req.src 7 last
    (beBytes 1 req.code ++ beBytes 2 req.tag ++ beBytes 1 result ++ beBytes 1 index ++ data)

end Sys2Proof.Machine
end

