-- ==== Sys2Proof/Machine/Views.lean ====
section
/-!
DEFINITION. Sys2Proof/Machine/Views.lean: what the stored tables and the volatile state say when they are read together: who
maps a quantity, which quantities fill a group's roles, a breaker's effective position and sides, a bus's source set, the
generator bus, the outputs TRIP_OUT and HEALTHY, the waiting requests of the synchroniser.
-/
namespace Sys2Proof.Machine

/-! ## Streams, quantities and groups -/

/-- The used (channel, quantity) pairs of a stream's channel map (R22). -/
def StreamEntry.pairs (e : StreamEntry) : List (Nat × Nat) := e.slots.toList.take e.count

/-- An unused stream entry (R22). -/
def StreamEntry.unused (e : StreamEntry) : Bool := decide (e.enable = 0 ∧ e.source = 0 ∧ e.count = 0)

/-- Whether the channel map of an entry names a quantity. -/
def StreamEntry.maps (e : StreamEntry) (q : Nat) : Bool := e.pairs.any (fun p => p.2 = q)

/-- The stream that maps a quantity: the enabled entry whose channel map names it (R31). -/
def Tables.streamOf (t : Tables) (q : Fin 96) : Option (Fin 24) :=
  firstId 24 (fun i => decide ((tget t.streams i).enable = 1) && (tget t.streams i).maps q.val)

/-- FILLING, LOCKED and HOLDING: the streams a slot waits for (R30). -/
def StreamState.active : StreamState → Bool
  | .filling | .locked | .holding => true
  | _ => false

/-- LOCKED and HOLDING: the streams whose quantities are computed (R44, R48). -/
def StreamState.inService : StreamState → Bool
  | .locked | .holding => true
  | _ => false

/-- GOOD or HELD (R44). -/
def Quality.valid : Quality → Bool
  | .good | .held => true
  | _ => false

/-- The three quantities of a phase role, if the role is present (R49). -/
def threeIds (v : Vector Nat 3) : Option (Fin 96 × Fin 96 × Fin 96) :=
  match toId 96 v[0], toId 96 v[1], toId 96 v[2] with
  | some a, some b, some c => some (a, b, c)
  | _, _, _ => none

/-- The phase currents of a group (R49). -/
def GroupEntry.currents (e : GroupEntry) : Option (Fin 96 × Fin 96 × Fin 96) := threeIds e.phaseI
/-- The phase voltages of a group (R49). -/
def GroupEntry.voltages (e : GroupEntry) : Option (Fin 96 × Fin 96 × Fin 96) := threeIds e.phaseV
/-- The neutral current of a group (R49). -/
def GroupEntry.neutralId (e : GroupEntry) : Option (Fin 96) := toId 96 e.neutral

/-- An unused group: every field absent (R49). -/
def GroupEntry.unused (e : GroupEntry) : Bool := decide (e = {})

/-- The quantities of a role as a list. -/
def roleList : Option (Fin 96 × Fin 96 × Fin 96) → List (Fin 96)
  | some (a, b, c) => [a, b, c]
  | none => []

/-- Every quantity a group names. -/
def GroupEntry.quantities (e : GroupEntry) : List (Fin 96) :=
  roleList e.currents ++ roleList e.voltages ++ e.neutralId.toList

/-- The quantities the residual of a group uses (R50). -/
def GroupEntry.residualIds (e : GroupEntry) : List (Fin 96) :=
  match e.neutralId with
  | some n => [n]
  | none => roleList e.currents

/-! ## Breakers and buses -/

/-- A used breaker entry (R91). -/
def BreakerEntry.used (e : BreakerEntry) : Bool := decide (e.addr ≠ 0)
/-- Kind GEN (R91). -/
def BreakerEntry.isGen (e : BreakerEntry) : Bool := decide (e.kind = 3)
/-- The bus on the first side. -/
def BreakerEntry.bus1 (e : BreakerEntry) : Option (Fin 6) := toId 6 e.side1
/-- The bus on the second side, if present. -/
def BreakerEntry.bus2 (e : BreakerEntry) : Option (Fin 6) := toId 6 e.side2
/-- The present side buses. -/
def BreakerEntry.sideBuses (e : BreakerEntry) : List (Fin 6) := e.bus1.toList ++ e.bus2.toList
/-- The backup set in list order (R91). -/
def BreakerEntry.backupIds (e : BreakerEntry) : List (Fin 24) := (e.backup.toList.take e.backupCount).filterMap (toId 24)
/-- The close permissives in use (R91). -/
def BreakerEntry.terms (e : BreakerEntry) : List PermTerm := e.perms.toList.take e.permCount
/-- The trip set of an element (R63). -/
def ElementEntry.tripIds (e : ElementEntry) : List (Fin 24) := (e.trip.toList.take e.tripCount).filterMap (toId 24)

/-- The effective position: the forced position when forced, the reported position otherwise (R93). -/
def BreakerRec.effective (r : BreakerRec) : Position :=
  match r.forced with
  | .none => r.reported
  | .openPos => .openPos
  | .closed => .closed

/-- The effective position of a breaker. -/
def Dev.position (d : Dev) (b : Fin 24) : Position := (d.breaker b).effective

/-- The lockout of a breaker is set (R97). A stored value other than 0 is set (notes/assumptions/48.md). -/
def Dev.locked (d : Dev) (b : Fin 24) : Bool := decide ((d.breakerCfg b).lockout ≠ 0)

/-- The transfer block of a bus is set (R101). A stored value other than 0 is set (notes/assumptions/48.md). -/
def Dev.blocked (d : Dev) (y : Fin 6) : Bool := decide ((d.busCfg y).block ≠ 0)

/-- A side bus of the breaker carries a transfer block (R105). -/
def Dev.sideBlocked (d : Dev) (b : Fin 24) : Bool := (d.breakerCfg b).sideBuses.any d.blocked

/-- The voltage group that measures a bus: that of its entry, or until the next instant the one that a WRITE replaced (R98). -/
def Dev.busGroup (d : Dev) (y : Fin 6) : Option (Fin 24) := toId 24 ((d.bus y).prior.getD (d.busCfg y).group)

/-- A breaker conducts while it is used and its effective position is not OPEN (R142). -/
def Dev.conducts (d : Dev) (b : Fin 24) : Bool := (d.breakerCfg b).used && decide (d.position b ≠ .openPos)

/-- Two buses are joined by one conducting breaker whose two sides are both present (R142). -/
def Dev.joined (d : Dev) (x y : Fin 6) : Bool :=
  (List.finRange 24).any (fun b => d.conducts b &&
    (decide ((d.breakerCfg b).bus1 = some x ∧ (d.breakerCfg b).bus2 = some y)
      || decide ((d.breakerCfg b).bus1 = some y ∧ (d.breakerCfg b).bus2 = some x)))

/-- The buses reached from a set of buses by at most `k` conducting breakers. -/
def Dev.reachIn (d : Dev) : Nat → List (Fin 6) → List (Fin 6)
  | 0, set => set
  | k + 1, set => d.reachIn k (idsWhere 6 (fun y => set.contains y || set.any (fun x => d.joined x y)))

/-- The buses reachable from a bus (R142). Six buses need at most five joins. -/
def Dev.reachable (d : Dev) (y : Fin 6) : List (Fin 6) := d.reachIn 5 [y]

/-- The line-side bus of a utility (R120). -/
def Dev.lineBus (d : Dev) (u : Utility) : Option (Fin 6) := toId 6 (tget d.tab.sources (utilityId u)).bus

/-- The source set of a bus (R142). -/
def Dev.sourceSet (d : Dev) (y : Fin 6) : SourceSet :=
  let set := d.reachable y
  { a := (d.lineBus .a).any set.contains
    b := (d.lineBus .b).any set.contains
    gen := (List.finRange 24).any (fun b =>
      (d.breakerCfg b).isGen && d.conducts b && (d.breakerCfg b).bus1.any set.contains) }

/-- A source set with no source. -/
def SourceSet.isEmpty (s : SourceSet) : Bool := !(s.a || s.b || s.gen)

/-- Two source sets share a source. -/
def SourceSet.meets (s t : SourceSet) : Bool := (s.a && t.a) || (s.b && t.b) || (s.gen && t.gen)

/-- The source set holds a utility. -/
def SourceSet.utility (s : SourceSet) : Bool := s.a || s.b

/-! ## Generators -/

/-- A used generator entry (R151). -/
def GenEntry.used (e : GenEntry) : Bool := decide (e.addr ≠ 0)

/-- The breaker of a set. -/
def Dev.genBreaker (d : Dev) (g : Fin 6) : Option (Fin 24) := toId 24 (d.genCfg g).breaker
/-- The group of a set. -/
def Dev.genGroup (d : Dev) (g : Fin 6) : Option (Fin 24) := toId 24 (d.genCfg g).group

/-- The set whose entry names a breaker (R99). -/
def Dev.genOfBreaker (d : Dev) (b : Fin 24) : Option (Fin 6) :=
  firstId 6 (fun g => (d.genCfg g).used && decide ((d.genCfg g).breaker = b.val))

/-- The generator bus: the side-1 bus of the breakers of the used entries (R151). -/
def Dev.genBus (d : Dev) : Option (Fin 6) :=
  (firstId 6 (fun g => (d.genCfg g).used)).bind (fun g => (d.genBreaker g).bind (fun b => (d.breakerCfg b).bus1))

/-- The state of the generator bus as SWM reports it; INDETERMINATE when there is none. -/
def Dev.genBusState (d : Dev) : BusState :=
  match d.genBus with
  | some y => (d.bus y).state
  | none => .indeterminate

/-- The rating in use (R151). -/
def Dev.ratingInUse (d : Dev) (g : Fin 6) : Nat :=
  if (d.genCfg g).rating ≠ 0 then (d.genCfg g).rating
  else match d.genGroup g with
    | some k => (d.groupCfg k).rating
    | none => 0

/-- The used sets by rank, lowest first (R160). -/
def Dev.gensByRank (d : Dev) : List (Fin 6) :=
  (List.range 6).flatMap (fun r => idsWhere 6 (fun g => (d.genCfg g).used && decide ((d.genCfg g).rank = r + 1)))

/-- The committed states (R156). -/
def GenState.committed : GenState → Bool
  | .starting | .available | .deadBusWait | .syncWait | .syncing | .closing | .onBus | .unloadHeld => true
  | _ => false

/-- STARTING through COOLDOWN, codes 1 to 11 (R155, R176). -/
def GenState.running : GenState → Bool
  | .stopped | .stopping | .failed => false
  | _ => true

/-- The number of committed sets (R160). -/
def Dev.committedCount (d : Dev) : Nat := (idsWhere 6 (fun g => (d.gen g).state.committed)).length

/-- The sets ON_BUS, in generator-id order. -/
def Dev.onBusSets (d : Dev) : List (Fin 6) := idsWhere 6 (fun g => decide ((d.gen g).state = .onBus))

/-- A STOPPED set is selectable when it is used, AUTO, and its engine is neither FAULT nor UNKNOWN (R160). -/
def Dev.selectable (d : Dev) (g : Fin 6) : Bool :=
  decide ((d.gen g).state = .stopped) && (d.genCfg g).used && !(d.gen g).manual
    && decide ((d.gen g).engine ≠ .fault ∧ (d.gen g).engine ≠ .unknown)

/-- The generator bus is islanded when its source set holds neither A nor B (R160), and where there is no generator bus
(notes/assumptions/58.md). -/
def Dev.genBusIslanded (d : Dev) : Bool :=
  match d.genBus with
  | some y => !(d.sourceSet y).utility
  | none => true

/-- The sets with a request waiting for the synchroniser, in serving order (R164). -/
def Dev.waitingGens (d : Dev) : List (Fin 6) := d.gensByRank.filter (fun g => decide ((d.gen g).state = .syncWait))

/-- The waiting requests in serving order: the bus request first, then the generator requests by rank (R164). -/
def Dev.syncQueue (d : Dev) : List SyncReq :=
  (d.par.busWaiting.toList.map SyncReq.bus) ++ d.waitingGens.map SyncReq.gen

/-- The breaker a request would close. -/
def Dev.reqBreaker (d : Dev) : SyncReq → Option (Fin 24)
  | .bus r => some r.breaker
  | .gen g => d.genBreaker g

/-- The reference group of a request: CHG's, or the generator bus's voltage group (R164). -/
def Dev.reqRefGroup (d : Dev) : SyncReq → Option (Fin 24)
  | .bus r => r.refGroup
  | .gen _ => d.genBus.bind d.busGroup

/-- The incoming group of a request: CHG's, or the set's own (R164). -/
def Dev.reqInGroup (d : Dev) : SyncReq → Option (Fin 24)
  | .bus r => r.inGroup
  | .gen g => d.genGroup g

/-- The sets a request adjusts: its own set, or all ON_BUS sets, or none (R164, R167). -/
def Dev.reqAdjusts (d : Dev) : SyncReq → List (Fin 6)
  | .bus r => if r.adjust then d.onBusSets else []
  | .gen g => [g]

/-! ## Outputs and modes -/

/-- An element is operated. -/
def Dev.anyOperated (d : Dev) : Bool := (List.finRange 32).any (fun e => (d.element e).operated)

/-- TRIP_OUT: asserted exactly while the mode is IN_SERVICE and an element is operated, low throughout reset (R88). -/
def State.tripOut (s : State) : Bool :=
  decide (s.power = .running) && decide (s.dev.mode = .inService) && s.dev.anyOperated

/-- The class of an error is MAJOR (R214). -/
def ErrorCode.major : ErrorCode → Bool
  | .streamsSilent | .bfOperated | .overlapExceeded | .schemeFailed | .settingsInvalid | .storeFault => true
  | _ => false

/-- HEALTHY while the device runs: the mode is IN_SERVICE and no MAJOR entry is listed (R213). -/
def Dev.healthy (d : Dev) : Bool := decide (d.mode = .inService) && !d.mgt.errors.any (fun e => e.code.major)

/-- HEALTHY: low throughout reset (R213). -/
def State.healthy (s : State) : Bool := decide (s.power = .running) && s.dev.healthy

/-- The ports are joined by the bypass in reset and without supply (R21). -/
def State.bypassed (s : State) : Bool := decide (s.power ≠ .running)

/-- The maintenance overlay is active by the last sample of MAINT_IN or by the flag (R81). -/
def Dev.overlay (d : Dev) : Bool := d.prot.maintIn || d.prot.maintFlag

/-- An element id is locked by the settings lock word (R207). -/
def LockEntry.locks (l : LockEntry) (e : Nat) : Bool :=
  let picked := if l.fromTop = 0 then decide (e < l.span) else decide (32 - l.span ≤ e)
  if l.complement = 0 then picked else !picked

/-- Row-sets in a capture area for a channel count (R184). -/
def capRows (channels : Nat) : Nat := Config.areaWords / (8 * channels)

/-- The used channels of the capture settings (R184). -/
def CaptureEntry.used (c : CaptureEntry) : List Nat := c.channels.toList.take c.count

/-- The record being made, while CAP is in POST: the newest entry of the list (R192). -/
def Cap.current (c : Cap) : Option CapRecord := c.records.find? (fun r => r.recording)

/-- The channels CAP writes: the record's own while one is being made, else the settings' (R185, R186). -/
def Dev.capChannels (d : Dev) : List Nat :=
  match d.cap.state, d.cap.current with
  | .post, some r => r.channels
  | _, _ => d.tab.capture.used

end Sys2Proof.Machine
end

