-- ==== Sys2Proof/Machine/Areas.lean ====
section
/-!
DEFINITION. Sys2Proof/Machine/Areas.lean: the management areas (R202) as lists of fields: how each record is carried in
bytes, and how the bytes of a written record are read back into a stored entry. A field is a list of scalars, each of a
width in bytes; a composite or list field is carried as its parts in order.
-/
namespace Sys2Proof.Machine

/-- A scalar of an area record: its width in bytes, whether it is carried in two's complement, and its value. -/
structure Scalar where
  width  : Nat
  signed : Bool
  value  : Int
  deriving DecidableEq, Repr

/-- A field of an area record. -/
abbrev Field := List Scalar

/-- An unsigned scalar. -/
def sU (w : Nat) (v : Nat) : Scalar := { width := w, signed := false, value := (v : Int) }
/-- A signed scalar. -/
def sI (w : Nat) (v : Int) : Scalar := { width := w, signed := true, value := v }
/-- An unsigned field of one scalar. -/
def fU (w : Nat) (v : Nat) : Field := [sU w v]
/-- A signed field of one scalar. -/
def fI (w : Nat) (v : Int) : Field := [sI w v]
/-- A flag. -/
def fB (b : Bool) : Field := fU 1 (bit b)
/-- A field that may be absent: a present flag, then the value or 0 (R202). -/
def fOpt (w : Nat) (o : Option Nat) : Field := [sU 1 (bit o.isSome), sU w (o.getD 0)]

/-! ## Codes of the enumerated values -/

/-- The codes of R34. -/
def StreamState.code : StreamState → Nat
  | .off => 0 | .seeking => 1 | .filling => 2 | .locked => 3 | .holding => 4 | .lost => 5
/-- The codes of R65. -/
def FaultPhase.code : FaultPhase → Nat
  | .a => 0 | .b => 1 | .c => 2 | .n => 3 | .none => 4
/-- The codes of R65. -/
def ForcedElement.code : ForcedElement → Nat
  | .none => 0 | .operated => 1 | .blocked => 2
/-- The codes of R61. -/
def refCode : Option Phase → Nat
  | some .a => 0 | some .b => 1 | some .c => 2 | none => 3
/-- The codes of R93. -/
def Position.code : Position → Nat
  | .travelling => 0 | .openPos => 1 | .closed => 2 | .defect => 3 | .unknown => 4
/-- The codes of R93. -/
def ForcedBreaker.code : ForcedBreaker → Nat
  | .none => 0 | .openPos => 1 | .closed => 2
/-- The codes of R93. -/
def holderCode : Option Holder → Nat
  | none => 0 | some .chg => 1 | some .par => 2 | some .mgt => 3
/-- The codes of R93. -/
def RecordEnd.code : RecordEnd → Nat
  | .none => 0 | .done => 1 | .failed => 2 | .superseded => 3
/-- Codes of a bus state, in the order of the table of R99 (notes/assumptions/13.md). -/
def BusState.code : BusState → Nat
  | .live => 0 | .dead => 1 | .indeterminate => 2
/-- The codes of R121. -/
def SourceState.code : SourceState → Nat
  | .unknown => 0 | .healthy => 1 | .failing => 2 | .failed => 3 | .returning => 4
/-- The codes of R121. -/
def Judgement.code : Judgement → Nat
  | .healthy => 0 | .unhealthy => 1 | .undetermined => 2
/-- The codes of R128. -/
def Cause.code : Cause → Nat
  | .lossA => 0 | .lossB => 1 | .lossBoth => 2 | .returnA => 3 | .returnB => 4
/-- The cause of a transfer; 5 is MANUAL (R131). -/
def causeCode : Option Cause → Nat
  | some c => c.code | none => 5
/-- The codes of R130. -/
def ChgState.code : ChgState → Nat
  | .settling => 0 | .idle => 1 | .running => 2 | .failed => 3 | .inhibited => 4
/-- The codes of R131. -/
def StepPhase.code : StepPhase → Nat
  | .claiming => 0 | .waitingBreaker => 1 | .requested => 2 | .synchronising => 3 | .waiting => 4 | .timing => 5
/-- The codes of R131. -/
def TransferResult.code : TransferResult → Nat
  | .running => 0 | .done => 1 | .failed => 2 | .aborted => 3
/-- The codes of R131. -/
def FailReason.code : FailReason → Nat
  | .none => 0 | .refused => 1 | .recordFailed => 2 | .superseded => 3 | .claimConflict => 4 | .breakerBusy => 5
  | .syncTimeout => 6 | .awaitTimeout => 7 | .overlap => 8
/-- The codes of R216. -/
def Refused.code : Refused → Nat
  | .none => 0 | .mode => 1 | .claimed => 2 | .busy => 3 | .lockout => 4 | .inLocal => 5 | .spring => 6 | .notOpen => 7
  | .permissive => 8 | .blocked => 9 | .indeterminate => 10 | .noSync => 11 | .notDeadBus => 12
/-- The codes of R156. -/
def GenState.code : GenState → Nat
  | .stopped => 0 | .starting => 1 | .available => 2 | .deadBusWait => 3 | .syncWait => 4 | .syncing => 5 | .closing => 6
  | .onBus => 7 | .unloading => 8 | .unloadHeld => 9 | .opening => 10 | .cooldown => 11 | .stopping => 12 | .failed => 13
/-- The codes of R154. -/
def Engine.code : Engine → Nat
  | .stopped => 0 | .cranking => 1 | .running => 2 | .fault => 3 | .unknown => 4
/-- The codes of R177. -/
def GenReason.code : GenReason → Nat
  | .none => 0 | .start => 1 | .sync => 2 | .close => 3 | .tripped => 4 | .engine => 5 | .controllerLost => 6
  | .opened => 7 | .openFailed => 8 | .manual => 9
/-- Codes of the vector result (notes/assumptions/13.md). -/
def VectorResult.code : VectorResult → Nat
  | .invalid => 0 | .inside => 1 | .outside => 2
/-- The codes of R187. -/
def CapState.code : CapState → Nat
  | .off => 0 | .armed => 1 | .post => 2 | .stalled => 3
/-- The codes of R188. -/
def TriggerKind.code : TriggerKind → Nat
  | .element => 0 | .transfer => 1 | .gen => 2 | .manual => 3
/-- The codes of R213. -/
def Mode.code : Mode → Nat
  | .inService => 0 | .test => 1 | .service => 2
/-- The codes of R214. -/
def ErrorCode.code : ErrorCode → Nat
  | .streamLost => 1 | .streamsSilent => 2 | .operateTimeout => 3 | .bfOperated => 4 | .overlapExceeded => 5
  | .schemeFailed => 6 | .genFailed => 7 | .sourceIndeterminate => 8 | .noticeOverflow => 9 | .settingsInvalid => 10
  | .storeFault => 11

/-! ## Stored records: fields in the order of the owning chapter -/

/-- DEVICE (R206). -/
def DeviceEntry.fields (e : DeviceEntry) : List Field := [fU 2 e.station, fU 2 e.notice, fU 1 e.startMode, fU 1 e.freq]

/-- STREAMS (R22). -/
def StreamEntry.fields (e : StreamEntry) : List Field :=
  [fU 1 e.enable, fU 2 e.source, sU 1 e.count :: e.slots.toList.flatMap (fun s => [sU 1 s.1, sU 1 s.2]),
   fU 1 e.delay, fU 1 e.forward]

/-- GROUPS (R49). -/
def GroupEntry.fields (e : GroupEntry) : List Field :=
  [e.phaseI.toList.map (sU 1), e.phaseV.toList.map (sU 1), fU 1 e.neutral, fU 4 e.nominal, fU 2 e.rating, fU 1 e.bus]

/-- ELEMENTS (R63). -/
def ElementEntry.fields (e : ElementEntry) : List Field :=
  [fU 1 e.enable, fU 1 e.kind, fU 1 e.source, fI 4 e.pickup, fU 4 e.maintPickup, fU 1 e.curve, fU 2 e.dial, fU 2 e.delay,
   fU 1 e.resetMode, fU 4 e.decay, fU 1 e.phaseMode, fU 1 e.slope, sU 1 e.tripCount :: e.trip.toList.map (sU 1),
   fU 1 e.lockout, fU 1 e.block, fU 1 e.bf, fU 1 e.monitor, fU 1 e.capture]

/-- ZONES (R78): one list field. -/
def ZoneEntry.fields (e : ZoneEntry) : List Field :=
  [sU 1 e.count :: e.members.toList.flatMap (fun m => [sU 1 m.breaker, sU 1 m.group, sU 1 m.polarity, sU 1 m.switched])]

/-- BREAKERS (R91). -/
def BreakerEntry.fields (e : BreakerEntry) : List Field :=
  [fU 2 e.addr, fU 1 e.kind, fU 1 e.side1, fU 1 e.side2, fU 2 e.timeout, fU 2 e.bfDelay,
   sU 1 e.backupCount :: e.backup.toList.map (sU 1),
   sU 1 e.permCount :: e.perms.toList.flatMap (fun t => [sU 1 t.cond, sU 1 t.id]), fU 1 e.lockout]

/-- BUSES (R98). -/
def BusEntry.fields (e : BusEntry) : List Field := [fU 1 e.group, fU 1 e.live, fU 1 e.dead, fU 1 e.block]

/-- SOURCES (R120). -/
def SourceEntry.fields (e : SourceEntry) : List Field :=
  [fU 1 e.bus, fI 2 e.low, fU 2 e.high, fU 2 e.lossDelay, fU 2 e.returnDelay]

/-- SCHEMES (R128). -/
def SchemeEntry.fields (e : SchemeEntry) : List Field :=
  [fU 1 e.count, fU 2 e.limit, fU 1 e.tripBreaker,
   e.steps.toList.flatMap (fun s => [sU 1 s.kind, sU 1 s.object, sU 1 s.cond, sU 4 s.time, sU 1 s.link])]

/-- A generator entry of GENERATORS (R151). -/
def GenEntry.fields (e : GenEntry) : List Field :=
  [fU 2 e.addr, fU 1 e.breaker, fU 1 e.group, fU 2 e.rating, fU 1 e.rank, fU 2 e.startTimeout, fU 2 e.syncTimeout,
   fU 2 e.ramp, fU 2 e.cooldown]

/-- The paralleling record of GENERATORS (R152). -/
def ParEntry.fields (e : ParEntry) : List Field :=
  [fU 2 e.angle, fU 4 e.voltWindow, fU 2 e.slipWindow, fU 2 e.targetSlip, fU 2 e.gs, fU 2 e.gv, fU 2 e.gl, fU 2 e.gf,
   fU 2 e.gq]

/-- CAPTURE_CONFIG (R184). -/
def CaptureEntry.fields (e : CaptureEntry) : List Field :=
  [fU 1 e.count, e.channels.toList.map (sU 1), fU 2 e.pre, fU 2 e.post, fU 1 e.policy, fU 1 e.element, fU 1 e.transfer,
   fU 1 e.gen, fU 1 e.manual]

/-- SETTINGS_LOCK (R207). -/
def LockEntry.fields (e : LockEntry) : List Field := [fU 1 e.fromTop, fU 1 e.span, fU 1 e.complement]

/-! ## Stored records read back from their scalars -/

/-- The k-th scalar of a record, unsigned. -/
def nat (v : List Int) (k : Nat) : Nat := (v.getD k 0).toNat
/-- The k-th scalar of a record, signed. -/
def int (v : List Int) (k : Nat) : Int := v.getD k 0

/-- DEVICE (R206). -/
def DeviceEntry.ofInts (v : List Int) : DeviceEntry :=
  { station := nat v 0, notice := nat v 1, startMode := nat v 2, freq := nat v 3 }

/-- STREAMS (R22). -/
def StreamEntry.ofInts (v : List Int) : StreamEntry :=
  { enable := nat v 0, source := nat v 1, count := nat v 2
    slots := Vector.ofFn (fun i => (nat v (3 + 2 * i.val), nat v (4 + 2 * i.val)))
    delay := nat v 19, forward := nat v 20 }

/-- GROUPS (R49). -/
def GroupEntry.ofInts (v : List Int) : GroupEntry :=
  { phaseI := Vector.ofFn (fun i => nat v i.val), phaseV := Vector.ofFn (fun i => nat v (3 + i.val))
    neutral := nat v 6, nominal := nat v 7, rating := nat v 8, bus := nat v 9 }

/-- ELEMENTS (R63). -/
def ElementEntry.ofInts (v : List Int) : ElementEntry :=
  { enable := nat v 0, kind := nat v 1, source := nat v 2, pickup := int v 3, maintPickup := nat v 4, curve := nat v 5
    dial := nat v 6, delay := nat v 7, resetMode := nat v 8, decay := nat v 9, phaseMode := nat v 10, slope := nat v 11
    tripCount := nat v 12, trip := Vector.ofFn (fun i => nat v (13 + i.val)), lockout := nat v 17, block := nat v 18
    bf := nat v 19, monitor := nat v 20, capture := nat v 21 }

/-- ZONES (R78). -/
def ZoneEntry.ofInts (v : List Int) : ZoneEntry :=
  { count := nat v 0
    members := Vector.ofFn (fun i => { breaker := nat v (1 + 4 * i.val), group := nat v (2 + 4 * i.val),
                                       polarity := nat v (3 + 4 * i.val), switched := nat v (4 + 4 * i.val) }) }

/-- BREAKERS (R91). -/
def BreakerEntry.ofInts (v : List Int) : BreakerEntry :=
  { addr := nat v 0, kind := nat v 1, side1 := nat v 2, side2 := nat v 3, timeout := nat v 4, bfDelay := nat v 5
    backupCount := nat v 6, backup := Vector.ofFn (fun i => nat v (7 + i.val)), permCount := nat v 11
    perms := Vector.ofFn (fun i => { cond := nat v (12 + 2 * i.val), id := nat v (13 + 2 * i.val) })
    lockout := nat v 20 }

/-- BUSES (R98). -/
def BusEntry.ofInts (v : List Int) : BusEntry :=
  { group := nat v 0, live := nat v 1, dead := nat v 2, block := nat v 3 }

/-- SOURCES (R120). -/
def SourceEntry.ofInts (v : List Int) : SourceEntry :=
  { bus := nat v 0, low := int v 1, high := nat v 2, lossDelay := nat v 3, returnDelay := nat v 4 }

/-- SCHEMES (R128). -/
def SchemeEntry.ofInts (v : List Int) : SchemeEntry :=
  { count := nat v 0, limit := nat v 1, tripBreaker := nat v 2
    steps := Vector.ofFn (fun i => { kind := nat v (3 + 5 * i.val), object := nat v (4 + 5 * i.val),
                                     cond := nat v (5 + 5 * i.val), time := nat v (6 + 5 * i.val),
                                     link := nat v (7 + 5 * i.val) }) }

/-- A generator entry of GENERATORS (R151). -/
def GenEntry.ofInts (v : List Int) : GenEntry :=
  { addr := nat v 0, breaker := nat v 1, group := nat v 2, rating := nat v 3, rank := nat v 4, startTimeout := nat v 5
    syncTimeout := nat v 6, ramp := nat v 7, cooldown := nat v 8 }

/-- The paralleling record of GENERATORS (R152). -/
def ParEntry.ofInts (v : List Int) : ParEntry :=
  { angle := nat v 0, voltWindow := nat v 1, slipWindow := nat v 2, targetSlip := nat v 3, gs := nat v 4, gv := nat v 5
    gl := nat v 6, gf := nat v 7, gq := nat v 8 }

/-- CAPTURE_CONFIG (R184). -/
def CaptureEntry.ofInts (v : List Int) : CaptureEntry :=
  { count := nat v 0, channels := Vector.ofFn (fun i => nat v (1 + i.val)), pre := nat v 17, post := nat v 18
    policy := nat v 19, element := nat v 20, transfer := nat v 21, gen := nat v 22, manual := nat v 23 }

/-- SETTINGS_LOCK (R207). -/
def LockEntry.ofInts (v : List Int) : LockEntry := { fromTop := nat v 0, span := nat v 1, complement := nat v 2 }

/-! ## Read-only records -/

/-- IDENT (R201): vendor, part, revision, station address, straps and f0 in force in Hz. -/
def Dev.identFields (d : Dev) : List Field :=
  [fU 2 0x0F31, fU 2 7310, fU 1 1, fU 2 d.tab.device.station, fB d.nomf, fB d.mgw, fU 1 (Config.nominalHz d.f60)]

/-- The selection's time left (R202). -/
def Dev.selectionLeft (d : Dev) (s : Selection) : Nat := timeLeft (after s.since Config.selectionMs) d.now

/-- MODE (R202). -/
def Dev.modeFields (d : Dev) : List Field :=
  [fU 1 d.mode.code, fU 1 d.tab.device.startMode, fU 1 (Config.nominalHz d.f60), fB d.nomf, fB d.mgw, fB d.healthy,
   fB d.mgt.tableFailed,
   (match d.mgt.selection with
    | some s => [sU 1 1, sU 2 s.owner, sU 1 s.target, sU 1 s.object, sU 2 (d.selectionLeft s)]
    | none => [sU 1 0, sU 2 0, sU 1 0, sU 1 0, sU 2 0]),
   fU 1 d.mgt.queue.length, fU 1 d.mgt.notices.length, fU 4 d.mgt.dropped]

/-- An entry of the ERRORS area and of the ERRORS response (R201, R214). -/
def ErrorEntry.fields (e : ErrorEntry) : List Field :=
  [fU 1 e.code.code, fU 2 e.subject, fU 1 (bit e.code.major), fU 4 e.firstMs.toNat, fU 4 e.lastMs.toNat, fU 2 e.count]

/-- A slot of the ERRORS area beyond the list's length (R202). -/
def emptyErrorFields : List Field := [fU 1 0, fU 2 0, fU 1 0, fU 4 0, fU 4 0, fU 2 0]

/-- The counters of a port in the order of R20. -/
def PortCounters.fields (c : PortCounters) : List Field :=
  [fU 4 c.rxGood, fU 4 c.rxCheckError, fU 4 c.rxRunt, fU 4 c.rxOwnSource, fU 4 c.rxMalformed, fU 4 c.rxRefused,
   fU 4 c.txFrames, fU 4 c.txDiscarded, fU 4 c.linkDown]

/-- LINK_COUNTERS (R20). -/
def Dev.linkFields (d : Dev) : List Field :=
  d.lnk.p1.counters.fields ++ d.lnk.p2.counters.fields
    ++ [fU 4 d.lnk.fq12Drop, fU 4 d.lnk.fq21Drop, fU 4 d.lnk.screened]

/-- A list padded with a filler to a length. -/
def padTo {α : Type} (n : Nat) (x : α) (xs : List α) : List α := xs ++ List.replicate (n - xs.length) x

/-- A slot of CAPTURE_RECORDS (R192). -/
def CapRecord.fields (r : CapRecord) : List Field :=
  [fU 1 1, fU 1 r.area.val, fU 2 r.gen.toNat, fB r.recording, [sU 4 r.firstInst.toNat, sU 4 r.firstMs.toNat],
   fU 2 r.count,
   sU 1 r.triggers.length :: (padTo 4 [sU 1 0, sU 2 0, sU 4 0, sU 4 0, sU 2 0]
     (r.triggers.map (fun t => [sU 1 t.kind.code, sU 2 t.subject, sU 4 t.inst.toNat, sU 4 t.ms.toNat, sU 2 t.offset]))).flatten,
   fU 2 r.start, fU 2 r.length, fU 2 r.pre, fU 2 r.post,
   sU 1 r.channels.length :: (padTo 16 255 r.channels).map (sU 1),
   (padTo 16 255 (r.worst.map Quality.code)).map (sU 1), fB r.locked]

/-- A slot of CAPTURE_RECORDS beyond the list's length: every field 0 (R192). -/
def emptyCapFields : List Field :=
  [fU 1 0, fU 1 0, fU 2 0, fU 1 0, [sU 4 0, sU 4 0], fU 2 0,
   sU 1 0 :: (List.replicate 4 [sU 1 0, sU 2 0, sU 4 0, sU 4 0, sU 2 0]).flatten,
   fU 2 0, fU 2 0, fU 2 0, fU 2 0, sU 1 0 :: List.replicate 16 (sU 1 0), List.replicate 16 (sU 1 0), fU 1 0]

/-- CAP's own state, the fifth record of CAPTURE_RECORDS (R192). In OFF and STALLED the last position stands
(notes/assumptions/62.md); the four generations are one field (notes/assumptions/63.md). -/
def Cap.ownFields (c : Cap) : List Field :=
  [fU 1 c.state.code, fU 1 c.area.val, fU 2 c.row, fU 1 c.phase, fU 2 c.filled,
   c.gens.toList.map (fun g => sU 2 g.toNat), fU 4 c.ignored]

/-! ## The LIVE area -/

/-- A stream's record (R23). -/
def StreamRec.fields (r : StreamRec) : List Field :=
  [fU 1 r.state.code, fU 1 r.fill, fU 1 r.missing, fU 1 r.outOfWindow, fOpt 2 r.last, fU 4 r.late, fU 4 r.duplicate,
   fU 4 r.malformed]

/-- The ring's record (R23, R202): state (0 IDLE, 1 RUNNING), oldest open slot, newest placed slot, instant counter. -/
def Sau.ringFields (s : Sau) : List Field :=
  [fB s.ring.isSome, fOpt 2 (s.ring.map Ring.oldest), fOpt 2 (s.ring.bind Ring.newest), fU 4 s.inst.toNat]

/-- A quantity's record (R61). -/
def QuantityRec.fields (r : QuantityRec) (kind : Nat) : List Field :=
  [fU 1 kind, fU 1 r.quality.code, fI 4 r.phasor.re, fI 4 r.phasor.im, fU 8 r.m2, fU 4 r.rms, fU 4 r.lastAt.toNat]

/-- A group's record (R61); an unused group reads 0 with INVALID qualities and reference none. -/
def Dev.groupFields (d : Dev) (g : Fin 24) : List Field :=
  let unused := (d.groupCfg g).unused
  let r : GroupRec := if unused then { missing := 0 } else d.group g
  let hz : Nat := if unused then 0 else (((Config.nominalHz d.f60 * 1000 : Nat) : Int) + r.df).toNat
  [fI 4 r.resid.re, fI 4 r.resid.im, fU 8 r.residM2, fU 4 r.residRms, fU 1 r.residQ.code, fI 4 r.p, fI 4 r.q,
   fU 1 r.powerQ.code, fU 1 (refCode r.ref), fI 2 r.df, fU 2 hz, fU 1 r.dfQ.code,
   fU 1 r.missing, fU 4 r.lastAt.toNat]

/-- An element's record (R65). -/
def ElementRec.fields (r : ElementRec) : List Field :=
  [fB r.picked, fU 1 r.phase.code, fU 4 r.integrator, fU 2 r.counter, fB r.operated, fU 1 r.forced.code, fB r.blocked,
   fU 2 r.opCount, fU 4 r.lastAt.toNat]

/-- PROT's own record (R65). -/
def Dev.protFields (d : Dev) : List Field :=
  [fB (decide (d.mode = .inService) && d.anyOperated), fB d.prot.maintIn, fB d.prot.maintFlag, fB d.overlay]

/-- A breaker's status age (R93, R95). -/
def Dev.statusAge (d : Dev) (b : Fin 24) : Nat :=
  if (d.breaker b).aged then Config.statusAgeMs else min Config.statusAgeMs (d.now - (d.breaker b).ageFrom).toNat

/-- An active record as carried in a breaker's record (R93). -/
def recordScalars : Option CmdRecord → Field
  | some r => [sU 1 1, sU 2 r.id.toNat, sU 1 r.action.code, sU 1 r.originCode, sU 4 r.issue.toNat, sU 1 r.repeatNo,
               sU 1 (bit r.bfEnd.isSome), sU 1 (bit r.bfOperated)]
  | none => [sU 1 0, sU 2 0, sU 1 0, sU 1 0, sU 4 0, sU 1 0, sU 1 0, sU 1 0]

/-- A breaker's record (R93), with the lockout that R97 reads back there as a last field (notes/assumptions/14.md). -/
def Dev.breakerFields (d : Dev) (b : Fin 24) : List Field :=
  let r := d.breaker b
  [fU 1 r.reported.code, fU 1 r.effective.code, fU 1 r.forced.code, fB r.inLocal, fB r.spring, fU 2 (d.statusAge b),
   fU 1 (holderCode r.claim), fU 2 r.nextId.toNat, recordScalars r.record, fU 1 r.outcome.code, fB (d.locked b)]

/-- A bus's record (R99). -/
def Dev.busFields (d : Dev) (y : Fin 6) : List Field :=
  [fU 1 (d.bus y).state.code, fB (d.blocked y), fU 4 (d.bus y).lastAt.toNat]

/-- The timer of a source: its code and whether it runs (R121). -/
def SourceTimer.scalars (t : SourceTimer) (now : Count32) : Nat × Nat × Nat :=
  match t with
  | .none => (0, 0, 0)
  | .running loss e => (if loss then 1 else 2, 1, timeLeft e now)
  | .suspended loss r => (if loss then 1 else 2, 0, r)

/-- A source's record (R121). -/
def SourceRec.fields (r : SourceRec) (now : Count32) : List Field :=
  let t := r.timer.scalars now
  [fU 1 r.state.code, fU 1 r.judgement.code, fU 1 t.1, fU 1 t.2.1, fU 4 t.2.2, fU 1 r.marks, fB r.noted,
   [sU 4 r.changeMs.toNat, sU 4 r.changeInst.toNat]]

/-- The bit mask of a source set (R202). -/
def SourceSet.mask (s : SourceSet) : Nat := bit s.a + 2 * bit s.b + 4 * bit s.gen

/-- The deadline a transfer record shows: that of the phase the step is in (R131). -/
def Transfer.shownDeadline (t : Transfer) : Option Count32 :=
  match t.phase with
  | .waitingBreaker => t.waitEnd
  | .synchronising | .waiting | .timing => t.deadline
  | _ => none

/-- A transfer record (R131). -/
def transferScalars : Option Transfer → Field
  | some t => [sU 1 1, sU 1 t.scheme.val, sU 1 (causeCode t.cause), sU 4 t.startMs.toNat, sU 4 t.startInst.toNat,
               sU 1 t.index, sU 4 t.stepStart.toNat, sU 1 t.phase.code] ++ fOpt 4 (t.shownDeadline.map BitVec.toNat)
               ++ fOpt 2 (t.cmdId.map BitVec.toNat)
               ++ [sU 1 t.result.code, sU 1 t.reason.code, sU 1 t.refusal.code]
  | none => [sU 1 0, sU 1 0, sU 1 0, sU 4 0, sU 4 0, sU 1 0, sU 4 0, sU 1 0] ++ fOpt 4 none ++ fOpt 2 none
               ++ [sU 1 0, sU 1 0, sU 1 0]

/-- An overlap record (R143). -/
def overlapScalars : Option Overlap → Field
  | some o => [sU 1 1, sU 1 o.breaker.val, sU 1 o.set1.mask, sU 1 o.set2.mask, sU 1 o.scheme.val, sU 2 o.limit,
               sU 1 o.tripBreaker, sU 4 o.start.toNat, sU 4 o.expiry.toNat]
  | none => [sU 1 0, sU 1 0, sU 1 0, sU 1 0, sU 1 0, sU 2 0, sU 1 0, sU 4 0, sU 4 0]

/-- The mask of the pending set: causes by their code (R202). -/
def causeMask (cs : List Cause) : Nat :=
  [Cause.lossA, .lossB, .lossBoth, .returnA, .returnB].foldl
    (fun m c => if cs.contains c then m + 2 ^ c.code else m) 0

/-- CHG's record (R130, R202). -/
def Chg.fields (c : Chg) : List Field :=
  [fU 1 c.state.code, fB c.inhibit, fU 1 (causeMask c.pending), fU 4 (maskOf c.claims), transferScalars c.transfer,
   overlapScalars c.overlap]

/-- A set's controller age (R154, R155). -/
def Dev.controllerAge (d : Dev) (g : Fin 6) : Nat :=
  if (d.gen g).aged then Config.controllerAgeMs else min Config.controllerAgeMs (d.now - (d.gen g).ageFrom).toNat

/-- A set's record (R154). -/
def Dev.genFields (d : Dev) (g : Fin 6) : List Field :=
  let r := d.gen g
  [fU 1 r.state.code, fU 1 r.engine.code, fB r.ready, fB r.manual, fU 2 (d.controllerAge g), fI 2 r.speed, fI 2 r.volt,
   fU 2 r.load.toNat, fI 4 r.reactive, fOpt 4 (r.timer.map (fun t => timeLeft t d.now)), fU 1 r.reason.code,
   fOpt 2 (r.cmdId.map BitVec.toNat)]

/-- A synchroniser request: its breaker, its two groups and the mask of the sets it adjusts (R164). -/
def Dev.requestScalars (d : Dev) (r : SyncReq) : Field :=
  [sU 1 ((d.reqBreaker r).elim 255 Fin.val), sU 1 ((d.reqRefGroup r).elim 255 Fin.val),
   sU 1 ((d.reqInGroup r).elim 255 Fin.val), sU 1 (maskOf (d.reqAdjusts r))]

/-- PAR's own record (R154). The queue is carried in 7 slots, the unused ones as 0, and the low 4 bytes of the consecutive-met count
(notes/assumptions/51.md). -/
def Dev.parFields (d : Dev) : List Field :=
  let y := d.par.sync
  [fB d.par.settled, fU 1 d.par.demand, fU 1 (d.par.grant.elim 255 Fin.val), fB y.served.isSome,
   (match y.served with
    | some r => sU 1 1 :: d.requestScalars r
    | none => List.replicate 5 (sU 1 0)),
   fU 4 y.met, fI 2 y.slip, fI 4 y.dv, fU 1 y.vector.code,
   sU 1 d.syncQueue.length :: (padTo 7 (List.replicate 4 (sU 1 0)) (d.syncQueue.map d.requestScalars)).flatten,
   fB d.par.islanded]

/-- A record of the LIVE area (R202). -/
def Dev.liveFields (d : Dev) (i : Nat) : List Field :=
  match toId 24 i, toId 96 (i - 25), toId 24 (i - 121), toId 32 (i - 145), toId 24 (i - 178), toId 6 (i - 202),
      toId 6 (i - 211) with
  | some k, _, _, _, _, _, _ => (tget d.sau.streams k).fields
  | _, q, g, e, b, y, s =>
    if i = 24 then d.sau.ringFields
    else if i ≤ 120 then q.elim [] (fun k => (d.quantity k).fields (tget d.tab.kinds k))
    else if i ≤ 144 then g.elim [] d.groupFields
    else if i ≤ 176 then e.elim [] (fun k => (d.element k).fields)
    else if i = 177 then d.protFields
    else if i ≤ 201 then b.elim [] d.breakerFields
    else if i ≤ 207 then y.elim [] d.busFields
    else if i = 208 then d.chg.sourceA.fields d.now
    else if i = 209 then d.chg.sourceB.fields d.now
    else if i = 210 then d.chg.fields
    else if i ≤ 216 then s.elim [] d.genFields
    else if i = 217 then d.parFields
    else []

/-! ## The areas -/

/-- The number of records of an area (R202). -/
def areaCount (a : Nat) : Nat :=
  [1, 1, 1, 24, 96, 24, 32, 8, 4, 24, 6, 2, 5, 8, 7, 1, 5, 218, 16, 1, 1].getD a 0

/-- The fields of a record of an area, numbered as WATCH_SET counts them (R208; notes/assumptions/63.md); none outside the areas.
Stored tables read as the blocks hold them
(notes/assumptions/8.md). -/
def Dev.areaFields (d : Dev) (a i : Nat) : List Field :=
  match a with
  | 0 => d.identFields
  | 1 => d.modeFields
  | 2 => d.tab.device.fields
  | 3 => (toId 24 i).elim [] (fun k => (tget d.tab.streams k).fields)
  | 4 => (toId 96 i).elim [] (fun k => [fU 1 (tget d.tab.kinds k)])
  | 5 => (toId 24 i).elim [] (fun k => (d.groupCfg k).fields)
  | 6 => (toId 32 i).elim [] (fun k => (d.elementCfg k).fields)
  | 7 => (toId 8 i).elim [] (fun k => (tget d.tab.curves k).toList.map (fU 2))
  | 8 => (toId 4 i).elim [] (fun k => (tget d.tab.zones k).fields)
  | 9 => (toId 24 i).elim [] (fun k => (d.breakerCfg k).fields)
  | 10 => (toId 6 i).elim [] (fun k => (d.busCfg k).fields)
  | 11 => (toId 2 i).elim [] (fun k => (tget d.tab.sources k).fields)
  | 12 => (toId 5 i).elim [] (fun k => [fU 1 (tget d.tab.causes k)])
  | 13 => (toId 8 i).elim [] (fun k => (tget d.tab.schemes k).fields)
  | 14 => (toId 6 i).elim d.tab.par.fields (fun k => (d.genCfg k).fields)
  | 15 => d.tab.capture.fields
  | 16 => if i < 4 then d.cap.records[i]?.elim emptyCapFields CapRecord.fields else d.cap.ownFields
  | 17 => d.liveFields i
  | 18 => d.mgt.errors[i]?.elim emptyErrorFields ErrorEntry.fields
  | 19 => d.linkFields
  | 20 => d.tab.lock.fields
  | _ => []

/-- The bytes of a field. -/
def fieldBytes (f : Field) : List Byte := f.flatMap (fun s => beBytes s.width s.value)

/-- The size in bytes of a field list. -/
def fieldsSize (fs : List Field) : Nat := (fs.flatten.map Scalar.width).sum

/-- The fixed record size of an area (R202): that of its widest record, 256 bytes in LIVE. -/
def areaSize (a : Nat) : Nat :=
  match a with
  | 14 => fieldsSize (ParEntry.fields {})
  | 16 => fieldsSize emptyCapFields
  | 17 => 256
  | _ => fieldsSize (({} : Dev).areaFields a 0)

/-- The bytes of a record, padded with 0 to the area's record size (R202). -/
def Dev.recordBytes (d : Dev) (a i : Nat) : List Byte := padTo (areaSize a) 0 ((d.areaFields a i).flatMap fieldBytes)

/-- The bytes of one field of a record, for WATCH_READ (R208). -/
def Dev.watchBytes (d : Dev) (a i f : Nat) : List Byte := ((d.areaFields a i)[f]?).elim [] fieldBytes

/-- The widths and signs of a record's scalars. -/
def areaLayout (a i : Nat) : List (Nat × Bool) :=
  (({} : Dev).areaFields a i).flatten.map (fun s => (s.width, s.signed))

/-- The scalars that bytes spell under a layout. -/
def readScalars : List (Nat × Bool) → List Byte → List Int
  | [], _ => []
  | (w, sg) :: rest, bs =>
    (if sg then intOfBytes (bs.take w) else (natOfBytes (bs.take w) : Int)) :: readScalars rest (bs.drop w)

/-- The scalars of a written record. -/
def readRecord (a i : Nat) (bs : List Byte) : List Int := readScalars (areaLayout a i) bs

/-- The records of a WRITE from a first record on. -/
def readRecords (a first : Nat) : Nat → List Byte → List (List Int)
  | 0, _ => []
  | n + 1, bs => readRecord a first (bs.take (areaSize a)) :: readRecords a (first + 1) n (bs.drop (areaSize a))

/-- A stored table set with one written record taken (R205). The lockout of a breaker and the transfer block of a bus are
kept as they are (R91, R98). -/
def Tables.writeRecord (t : Tables) (a i : Nat) (v : List Int) : Tables :=
  match a with
  | 2 => { t with device := DeviceEntry.ofInts v }
  | 3 => (toId 24 i).elim t (fun k => { t with streams := tset t.streams k (StreamEntry.ofInts v) })
  | 4 => (toId 96 i).elim t (fun k => { t with kinds := tset t.kinds k (nat v 0) })
  | 5 => (toId 24 i).elim t (fun k => { t with groups := tset t.groups k (GroupEntry.ofInts v) })
  | 6 => (toId 32 i).elim t (fun k => { t with elements := tset t.elements k (ElementEntry.ofInts v) })
  | 7 => (toId 8 i).elim t (fun k => { t with curves := tset t.curves k (Vector.ofFn (fun j => nat v j.val)) })
  | 8 => (toId 4 i).elim t (fun k => { t with zones := tset t.zones k (ZoneEntry.ofInts v) })
  | 9 => (toId 24 i).elim t (fun k =>
      { t with breakers := tset t.breakers k { BreakerEntry.ofInts v with lockout := (tget t.breakers k).lockout } })
  | 10 => (toId 6 i).elim t (fun k =>
      { t with buses := tset t.buses k { BusEntry.ofInts v with block := (tget t.buses k).block } })
  | 11 => (toId 2 i).elim t (fun k => { t with sources := tset t.sources k (SourceEntry.ofInts v) })
  | 12 => (toId 5 i).elim t (fun k => { t with causes := tset t.causes k (nat v 0) })
  | 13 => (toId 8 i).elim t (fun k => { t with schemes := tset t.schemes k (SchemeEntry.ofInts v) })
  | 14 => (toId 6 i).elim { t with par := ParEntry.ofInts v }
      (fun k => { t with gens := tset t.gens k (GenEntry.ofInts v) })
  | 15 => { t with capture := CaptureEntry.ofInts v }
  | 20 => { t with lock := LockEntry.ofInts v }
  | _ => t

/-! ## Fields carried as stated where an entry does not use them (R22, R63, R78, R91, R184; notes/assumptions/32.md) -/

/-- The other fields of an unused stream entry are 0 (R22). -/
def StreamEntry.canonical (e : StreamEntry) : StreamEntry := if e.unused then {} else e

/-- Of an entry with enable 0 the fields that do not apply to its kind are 0, and the ids that its trip set does not use 255 (R63;
notes/assumptions/32.md). One with enable 1 stays as it is written: R64 refuses it where it has them otherwise. -/
def ElementEntry.canonical (e : ElementEntry) : ElementEntry :=
  let k := e.kind
  if e.enable = 0 then { e with
    maintPickup := if k = 1 ∨ k = 2 then e.maintPickup else 0
    curve := if k = 0 then e.curve else 0
    dial := if k = 0 then e.dial else 0
    delay := if k ≠ 0 ∧ k ≠ 3 then e.delay else 0
    resetMode := if k = 0 then e.resetMode else 0
    decay := if k = 0 ∧ e.resetMode = 1 then e.decay else 0
    phaseMode := if k = 4 ∨ k = 5 then e.phaseMode else 0
    slope := if k = 3 then e.slope else 0
    trip := Vector.ofFn (fun i => if i.val < e.tripCount then tget e.trip i else 255) }
  else e

/-- The member slots that a zone does not use are all 0 (R78). -/
def ZoneEntry.canonical (e : ZoneEntry) : ZoneEntry :=
  { e with members := Vector.ofFn (fun i => if i.val < e.count then tget e.members i else {}) }

/-- The other fields of an unused breaker entry are 0, or as stated for absent values, but for the lockout, which a WRITE does
not take (R91; notes/assumptions/33.md). -/
def BreakerEntry.canonical (e : BreakerEntry) : BreakerEntry := if e.used then e else { lockout := e.lockout }

/-- With a channel count of 0 the pre and post rows are 0 (R184). -/
def CaptureEntry.canonical (e : CaptureEntry) : CaptureEntry := if e.count = 0 then { e with pre := 0, post := 0 } else e

/-- A table set with the fields that a written record does not use as they are to be carried. -/
def Tables.canonicalRecord (t : Tables) (a i : Nat) : Tables :=
  match a with
  | 3 => (toId 24 i).elim t (fun k => { t with streams := tmod t.streams k StreamEntry.canonical })
  | 6 => (toId 32 i).elim t (fun k => { t with elements := tmod t.elements k ElementEntry.canonical })
  | 8 => (toId 4 i).elim t (fun k => { t with zones := tmod t.zones k ZoneEntry.canonical })
  | 9 => (toId 24 i).elim t (fun k => { t with breakers := tmod t.breakers k BreakerEntry.canonical })
  | 15 => { t with capture := t.capture.canonical }
  | _ => t

/-- A stored table set with the records of a WRITE taken, from a first record on. -/
def Tables.writeRecords (t : Tables) (a first : Nat) : List (List Int) → Tables
  | [] => t
  | v :: rest => ((t.writeRecord a first v).canonicalRecord a first).writeRecords a (first + 1) rest

end Sys2Proof.Machine
end

