-- ==== Sys2Proof/Machine/Link.lean ====
section
/-!
DEFINITION. Sys2Proof/Machine/Link.lean: the link unit's queues and arbiters (R11, R14 to R20), and the placing of MGMT-RSP
segments in the response slots (R16, R199, R200, R203).
-/
namespace Sys2Proof.Machine

/-! ## The two transmit arbiters -/

/-- A frame of the part's own is taken for transmission: it gets the port's sequence value (R19). -/
def Dev.startOwn (d : Dev) (p : Port) (f : OutFrame) : Dev :=
  d.modPort p (fun r => { r with tx := some (f.toEth p r.seq), seq := r.seq + 1 })

/-- A forwarded frame is taken for transmission unchanged (R11). -/
def Dev.startForward (d : Dev) (p : Port) (f : EthFrame) : Dev := d.modPort p (fun r => { r with tx := some f })

/-- MGT learns that a segment has left its slot, taken or discarded: the request whose last segment it was leaves service
(R200), and a RESTART that waited for it is due (R212). -/
def Dev.segmentGone (d : Dev) (e : SlotEntry) : Dev :=
  d.modMgt (fun m => { m with service := if e.endsService then none else m.service
                              restartDue := m.restartDue || e.restart })

/-- The segment in a port's response slot is taken for transmission (R16). -/
def Dev.takeSlot (d : Dev) (p : Port) (e : SlotEntry) : Dev :=
  ((d.modPort p (fun r => { r with slot := none })).startOwn p e.frame).segmentGone e

/-- P1 is free: the head of the first non-empty queue in the order of R17 is taken. -/
def Dev.takeP1 (d : Dev) : Dev :=
  match d.lnk.protQueue, d.lnk.ctrlQueue, d.lnk.setpoints, d.lnk.p1.slot, d.lnk.fq21 with
  | x :: xs, _, _, _, _ => Dev.startOwn { d with lnk := { d.lnk with protQueue := xs } } .p1 x.2
  | [], x :: xs, _, _, _ => Dev.startOwn { d with lnk := { d.lnk with ctrlQueue := xs } } .p1 x.2
  | [], [], x :: xs, _, _ => Dev.startOwn { d with lnk := { d.lnk with setpoints := xs } } .p1 x.2
  | [], [], [], some e, _ => d.takeSlot .p1 e
  | [], [], [], none, x :: xs => Dev.startForward { d with lnk := { d.lnk with fq21 := xs } } .p1 x
  | [], [], [], none, [] => d

/-- P2 is free: the response slot, then the head of the notice queue while the notice address is not 0, then FQ12 (R18). -/
def Dev.takeP2 (d : Dev) : Dev :=
  match d.lnk.p2.slot with
  | some e => d.takeSlot .p2 e
  | none =>
    if d.tab.device.notice ≠ 0 ∧ d.mgt.notices ≠ [] then
      match d.mgt.notices with
      | n :: ns => (d.modMgt (fun m => { m with notices := ns })).startOwn .p2 (d.noticeFrame n)
      | [] => d
    else
      match d.lnk.fq12 with
      | x :: xs => Dev.startForward { d with lnk := { d.lnk with fq12 := xs } } .p2 x
      | [] => d

/-- A free port with its link UP takes the next frame by queue priority (R17, R18). -/
def Dev.arbitrate (d : Dev) (p : Port) : Dev :=
  if (d.lnk.port p).up ∧ (d.lnk.port p).tx = none then
    match p with
    | .p1 => d.takeP1
    | .p2 => d.takeP2
  else d

/-! ## Response segments -/

/-- The bytes of an item, gathered now (R203). -/
def Dev.itemBytes (d : Dev) : Item → List Byte
  | .bytes bs => bs
  | .record a i => d.recordBytes a i
  | .watch a i f => d.watchBytes a i f

/-- Gathers items, each whole, until a segment is full or none is left (R200, R203). -/
def Dev.gather (d : Dev) : List Item → List Byte → List Item × List Byte
  | [], carry => ([], carry)
  | x :: xs, carry =>
    if Config.segmentBytes ≤ carry.length then (x :: xs, carry) else d.gather xs (carry ++ d.itemBytes x)

/-- The stored record that a capture request names by its area and generation (R194). -/
def Cap.find (c : Cap) (area gen : Nat) : Option CapRecord :=
  c.records.find? (fun r => decide (r.area.val = area ∧ r.gen.toNat = gen))

/-- The address of sample s of channel c of a record (R192). -/
def CapRecord.address (r : CapRecord) (c s : Nat) : Nat :=
  let n := r.channels.length
  r.area.val * Config.areaWords + ((r.start + s / 8) % capRows n) * 8 * n + 8 * c + s % 8

/-- The bytes of samples of a record's channel, read from capture memory (R194). -/
def Cap.words (c : Cap) (r : CapRecord) (channel first count : Nat) : List Byte :=
  (List.range count).flatMap (fun k => beBytes 4 (memRead c.mem (r.address channel (first + k))).toNat)

/-- The next segment of a response built now: its result, its data, whether it is the last, and what is left. -/
def Dev.nextData (d : Dev) (r : Response) : Nat × List Byte × Bool × Response :=
  match r.capture with
  | some c =>
    match d.cap.find c.area c.gen with
    | none => (resStale, [], true, { r with capture := none })
    | some rec =>
      let n := min (Config.segmentBytes / 4) c.remaining
      (r.result, d.cap.words rec c.channel c.next n, decide (c.remaining ≤ n),
        { r with capture := some { c with next := c.next + n, remaining := c.remaining - n } })
  | none =>
    let g := d.gather r.items r.carry
    (r.result, g.2.take Config.segmentBytes, decide (g.1 = [] ∧ g.2.length ≤ Config.segmentBytes),
      { r with items := g.1, carry := g.2.drop Config.segmentBytes })

/-- The device with the request in service replaced. -/
def Dev.setService (d : Dev) (x : Option Service) : Dev := d.modMgt (fun m => { m with service := x })

/-- What goes into a port's response slot next: a waiting immediate reply first (R199), else the next segment of the request
in service, if its response uses the port and is not placed whole. -/
def Dev.nextSegment (d : Dev) (p : Port) : Option (SlotEntry × Dev) :=
  match (d.lnk.port p).reply with
  | some f => some ({ frame := f, endsService := false, restart := false }, d.modPort p (fun r => { r with reply := none }))
  | none =>
    match d.mgt.service with
    | some ⟨req, .sending r⟩ =>
      if req.port = p ∧ r.placed = false then
        let x := d.nextData r
        let last := x.2.2.1
        some ({ frame := d.segmentFrame req x.1 r.index last x.2.1, endsService := last, restart := last && r.restart },
          d.setService (some ⟨req, .sending { x.2.2.2 with index := r.index + 1, placed := last }⟩))
      else none
    | _ => none

/-- Counts a frame or segment lost to a DOWN link (R2, R20). -/
def Dev.countDiscarded (d : Dev) (p : Port) : Dev :=
  d.modCounters p (fun c => { c with txDiscarded := sat32 c.txDiscarded })

/-- Fills a port's empty response slot, again and again while what is placed leaves at once: taken by a free arbiter, or
discarded at a DOWN port (R2, R16). -/
def Dev.pump : Nat → Port → Dev → Dev
  | 0, _, d => d
  | n + 1, p, d =>
    if (d.lnk.port p).slot.isSome then d
    else match d.nextSegment p with
      | none => d
      | some (e, d1) =>
        if (d1.lnk.port p).up then Dev.pump n p ((d1.modPort p (fun r => { r with slot := some e })).arbitrate p)
        else Dev.pump n p ((d1.countDiscarded p).segmentGone e)

/-- A response has at most 128 segments (R200); a waiting reply may go before each. -/
def pumpLimit : Nat := 300

/-- The port's arbiter and its response slot are run as far as they go now (R16 to R18). -/
def Dev.runPort (d : Dev) (p : Port) : Dev := Dev.pump pumpLimit p (d.arbitrate p)

/-! ## The queues -/

/-- A frame is placed in the forward queue away from its arrival port, dropped when 32 wait (R11). -/
def Dev.forward (d : Dev) (p : Port) (f : EthFrame) : Dev :=
  match p with
  | .p1 =>
    if d.lnk.fq12.length < Config.forwardCapacity then
      Dev.runPort { d with lnk := { d.lnk with fq12 := d.lnk.fq12 ++ [f] } } .p2
    else { d with lnk := { d.lnk with fq12Drop := sat32 d.lnk.fq12Drop } }
  | .p2 =>
    if d.lnk.fq21.length < Config.forwardCapacity then
      Dev.runPort { d with lnk := { d.lnk with fq21 := d.lnk.fq21 ++ [f] } } .p1
    else { d with lnk := { d.lnk with fq21Drop := sat32 d.lnk.fq21Drop } }

/-- The queue without the entries of a key. -/
def dropKey {κ α : Type} [DecidableEq κ] (k : κ) (q : List (κ × α)) : List (κ × α) := q.filter (fun x => decide (x.1 ≠ k))

/-- The queue with an entry of a key in the waiting one's place, or at the tail (R14, R15). -/
def putKey {κ α : Type} [DecidableEq κ] (k : κ) (x : α) (q : List (κ × α)) : List (κ × α) :=
  if q.any (fun y => decide (y.1 = k)) then q.map (fun y => if y.1 = k then (k, x) else y) else q ++ [(k, x)]

/-- A COMMAND frame is enqueued for a breaker (R14). -/
def Dev.enqueueCommand (d : Dev) (b : Fin 24) (prot : Bool) (f : OutFrame) : Dev :=
  let l := d.lnk
  Dev.runPort { d with lnk :=
    if prot then { l with protQueue := putKey b f l.protQueue, ctrlQueue := dropKey b l.ctrlQueue }
    else { l with ctrlQueue := putKey b f l.ctrlQueue, protQueue := dropKey b l.protQueue } } .p1

/-- The waiting copy of a breaker's ended record is removed (R14). -/
def Dev.removeCommand (d : Dev) (b : Fin 24) : Dev :=
  { d with lnk := { d.lnk with protQueue := dropKey b d.lnk.protQueue, ctrlQueue := dropKey b d.lnk.ctrlQueue } }

/-- A SETPOINT frame is enqueued for a set (R15). -/
def Dev.enqueueSetpoint (d : Dev) (g : Fin 6) (f : OutFrame) : Dev :=
  Dev.runPort { d with lnk := { d.lnk with setpoints := putKey g f d.lnk.setpoints } } .p1

/-! ## Immediate replies -/

/-- An immediate reply arises for a port (R199): it waits for the slot, or is dropped and counted when one waits already. -/
def Dev.immediateReply (d : Dev) (p : Port) (f : OutFrame) : Dev :=
  if (d.lnk.port p).reply.isSome then d.modMgt (fun m => { m with dropped := sat32 m.dropped })
  else (d.modPort p (fun r => { r with reply := some f })).runPort p

/-! ## Link changes and the end of a transmission -/

/-- A port's link goes from UP to DOWN (R2). -/
def Dev.linkDown (d : Dev) (p : Port) : Dev :=
  let r := d.lnk.port p
  if r.up then
    let d := d.modPort p (fun r => { r with up := false, tx := none, slot := none })
    let d := d.modCounters p (fun c => { c with linkDown := sat32 c.linkDown })
    let d := if r.tx.isSome then d.countDiscarded p else d
    let d := match r.slot with
      | some e => (d.countDiscarded p).segmentGone e
      | none => d
    Dev.pump pumpLimit p d
  else d

/-- A port's link returns to UP (R2). -/
def Dev.linkUp (d : Dev) (p : Port) : Dev :=
  if (d.lnk.port p).up then d else (d.modPort p (fun r => { r with up := true })).runPort p

/-- A port has sent its frame to the end (R17, R20). -/
def Dev.transmissionEnd (d : Dev) (p : Port) : Dev :=
  match (d.lnk.port p).tx with
  | some f =>
    let d := d.modPort p (fun r => { r with tx := none, lastOut := some f })
    (d.modCounters p (fun c => { c with txFrames := sat32 c.txFrames })).runPort p
  | none => d

end Sys2Proof.Machine
end

