-- ==== Sys2Proof/Machine/Flags.lean ====
section
/-!
DEFINITION. Sys2Proof/Machine/Flags.lean: the error list (R214), the notice queue (R216) and the notices of each kind. HEALTHY
and TRIP_OUT follow from the lists and the mode (Machine/Views.lean).
-/
namespace Sys2Proof.Machine

/-- No subject (R214). -/
def noSubject : Nat := 0xFFFF

/-- The error list without the entry that a full list gives up: the oldest MINOR entry, or the oldest when all are MAJOR. -/
def evictError (es : List ErrorEntry) : List ErrorEntry :=
  match es.findIdx? (fun e => !e.code.major) with
  | some i => es.eraseIdx i
  | none => es.drop 1

/-- An entry of a code and subject is listed. -/
def errorListed (es : List ErrorEntry) (c : ErrorCode) (subject : Nat) : Bool :=
  es.any (fun e => decide (e.code = c ∧ e.subject = subject))

/-- The error list after an error is recorded at a time (R214). -/
def addError (es : List ErrorEntry) (c : ErrorCode) (subject : Nat) (now : Count32) : List ErrorEntry :=
  if errorListed es c subject then
    es.map (fun e => if e.code = c ∧ e.subject = subject then { e with lastMs := now, count := sat16 e.count } else e)
  else
    (if es.length < Config.errorCapacity then es else evictError es)
      ++ [{ code := c, subject := subject, firstMs := now, lastMs := now, count := 1 }]

/-- An error is recorded in the list, with no notice. -/
def Dev.noteError (d : Dev) (c : ErrorCode) (subject : Nat) : Dev :=
  d.modMgt (fun m => { m with errors := addError m.errors c subject d.now })

/-- A notice is asked for (R216): not queued while the notice address is 0; a full queue gives up its oldest notice and
records NOTICE_OVERFLOW. -/
def Dev.queueNotice (d : Dev) (kind subject : Nat) (detail : List Byte) : Dev :=
  if d.tab.device.notice = 0 then d
  else
    let full := decide (Config.noticeCapacity ≤ d.mgt.notices.length)
    let d := if full then (d.modMgt (fun m => { m with notices := m.notices.drop 1 })).noteError .noticeOverflow noSubject else d
    (d.modMgt (fun m => { m with notices := m.notices ++
      [{ kind := kind, subject := subject, ms := d.now, inst := d.sau.inst, detail := detail }] })).runPort .p2

/-- A block asks MGT to record an error (R214): a new entry also queues an ERROR notice. -/
def Dev.recordError (d : Dev) (c : ErrorCode) (subject : Nat) : Dev :=
  if errorListed d.mgt.errors c subject then d.noteError c subject
  else (d.noteError c subject).queueNotice 8 subject
    (beBytes 1 c.code ++ beBytes 1 (bit c.major) ++ [0, 0])

/-- A TRIP notice (R84, R216). -/
def Dev.tripNotice (d : Dev) (e : Fin 32) (phase : FaultPhase) (kind count : Nat) : Dev :=
  d.queueNotice 1 e.val (beBytes 1 phase.code ++ beBytes 1 kind ++ beBytes 2 count)

/-- A BF notice (R114, R216). -/
def Dev.bfNotice (d : Dev) (b : Fin 24) (id : Count16) (backups : Nat) : Dev :=
  d.queueNotice 2 b.val (beBytes 2 id.toNat ++ beBytes 1 backups ++ [0])

/-- A TRANSFER_START notice (R132, R216). -/
def Dev.transferStartNotice (d : Dev) (s : Fin 8) (c : Option Cause) : Dev :=
  d.queueNotice 3 s.val (beBytes 1 (causeCode c) ++ [0, 0, 0])

/-- A TRANSFER_END notice (R139, R216). -/
def Dev.transferEndNotice (d : Dev) (t : Transfer) : Dev :=
  d.queueNotice 4 t.scheme.val
    (beBytes 1 t.result.code ++ beBytes 1 t.reason.code ++ beBytes 1 t.index ++ beBytes 1 t.refusal.code)

/-- A GEN_EVENT notice (R178, R216). -/
def Dev.genNotice (d : Dev) (g : Fin 6) (r : GenReason) (left : GenState) : Dev :=
  d.queueNotice 5 g.val (beBytes 1 r.code ++ beBytes 1 left.code ++ [0, 0])

/-- A STREAM_STATE notice (R36, R216). -/
def Dev.streamNotice (d : Dev) (i : Fin 24) (new left : StreamState) : Dev :=
  d.queueNotice 6 i.val (beBytes 1 new.code ++ beBytes 1 left.code ++ [0, 0])

/-- A COMMAND_SCREENED notice (R13, R216). -/
def Dev.screenedNotice (d : Dev) (b : Fin 24) (id reason : Nat) : Dev :=
  d.queueNotice 7 b.val (beBytes 2 id ++ beBytes 1 reason ++ [0])

end Sys2Proof.Machine
end

