-- ==== Sys2Proof/Machine/Capture.lean ====
section
/-!
DEFINITION. Sys2Proof/Machine/Capture.lean: the capture unit (Chapter 8): arming, the writing of closed slots, triggers,
records, and what the capture requests decide.
-/
namespace Sys2Proof.Machine

/-- The worse of two qualities in the order GOOD, QUESTIONABLE, HELD, INVALID (R186). -/
def Quality.worse : Quality → Quality → Quality
  | .invalid, _ | _, .invalid => .invalid
  | .held, _ | _, .held => .held
  | .questionable, _ | _, .questionable => .questionable
  | .good, .good => .good

/-- The quality summaries of a row-set, cleared when none is kept. -/
def summaryOf (ss : List (Nat × List Quality)) (row channels : Nat) : List Quality :=
  match ss.find? (fun x => x.1 = row) with
  | some x => x.2
  | none => List.replicate channels .good

/-- CAP arms in an area (R187). -/
def Cap.arm (c : Cap) (a : Fin 4) : Cap :=
  { c with area := a, gens := tset c.gens a (tget c.gens a + 1), row := 0, phase := 0, filled := 0, summaries := [],
           state := .armed, lastArmed := some a }

/-- An area is free when no record in the list lies in it (R187). -/
def Cap.free (c : Cap) (a : Fin 4) : Bool := !c.records.any (fun r => decide (r.area = a))

/-- The areas in the order that begins after an area (R191), that area last. -/
def areasAfter (a : Fin 4) : List (Fin 4) := [a + 1, a + 2, a + 3, a]

/-- The area chosen from an order of areas: the first free one, else under OVERWRITE that of the oldest unlocked record but
the one just stored, which leaves the list (R191). `keep` is the area of the record just stored, if any. -/
def Cap.chooseArea (c : Cap) (order : List (Fin 4)) (overwrite : Bool) (keep : Option (Fin 4)) : Option (Fin 4 × Cap) :=
  match order.find? c.free with
  | some a => some (a, c)
  | none =>
    if overwrite then
      match c.records.find? (fun r => !r.locked && !r.recording && decide (keep ≠ some r.area)) with
      | some r => some (r.area, { c with records := c.records.filter (fun x => decide (x.area ≠ r.area)) })
      | none => none
    else none

/-- CAP arms in the area chosen, or stalls (R187, R191). -/
def Cap.armNext (c : Cap) (order : List (Fin 4)) (overwrite : Bool) (keep : Option (Fin 4)) : Cap :=
  match c.chooseArea order overwrite keep with
  | some (a, c') => c'.arm a
  | none => { c with state := .stalled }

/-- The order in which CAP looks for an area when it arms from OFF (R187). -/
def Cap.orderFromOff (c : Cap) : List (Fin 4) :=
  match c.lastArmed with
  | some a => areasAfter a
  | none => [0, 1, 2, 3]

/-- The policy is OVERWRITE (R184). -/
def CaptureEntry.overwrites (e : CaptureEntry) : Bool := decide (e.policy = 0)

/-- The row-sets of a record, in order. -/
def CapRecord.rows (r : CapRecord) : List Nat :=
  (List.range r.length).map (fun k => (r.start + k) % capRows r.channels.length)

/-- The worst quality of each channel over a record's row-sets (R191, R193). -/
def Cap.worstOf (c : Cap) (r : CapRecord) : List Quality :=
  (List.range r.channels.length).map (fun k =>
    r.rows.foldl (fun q row => q.worse ((summaryOf c.summaries row r.channels.length).getD k .good)) .good)

/-- The record being made is complete: it is stored, and CAP arms in the next area, overwrites the oldest unlocked record,
stalls, or turns OFF when the channel count has been written to 0 (R185, R191). Where it stalls or turns OFF the position and the
filled count stay as they are (notes/assumptions/62.md). -/
def Cap.complete (c : Cap) (cfg : CaptureEntry) (r : CapRecord) : Cap :=
  let stored := { r with recording := false, worst := c.worstOf r }
  let c := { c with records := c.records.map (fun (x : CapRecord) => if x.recording then stored else x) }
  if cfg.count = 0 then { c with state := .off }
  else c.armNext (areasAfter r.area) cfg.overwrites (some r.area)

/-- The word a sample is stored as: 0 when its quality is INVALID, else its value sign-extended (R183). -/
def sampleWord (s : Sample) : CapWord := if s.quality = .invalid then 0 else BitVec.ofInt 32 s.value

/-- The sample of a slot that a channel records. -/
def slotSample (values : Vector Sample 96) (q : Nat) : Sample :=
  match toId 96 q with
  | some i => tget values i
  | none => {}

/-- One sample for each channel is written at the write position (R186); `k` counts the channels. -/
def writeChannels (mem : List (Nat × CapWord)) (base n row phase : Nat) (values : Vector Sample 96) :
    Nat → List Nat → List (Nat × CapWord)
  | _, [] => mem
  | k, q :: qs =>
    writeChannels (memWrite mem (base + row * 8 * n + 8 * k + phase) (sampleWord (slotSample values q))) base n row phase
      values (k + 1) qs

/-- The summaries after a slot is written: cleared at phase 0, then the worse of the two for each channel (R186). -/
def addSummary (ss : List (Nat × List Quality)) (row phase : Nat) (qs : List Quality) : List (Nat × List Quality) :=
  let old := if phase = 0 then qs.map (fun _ => Quality.good) else summaryOf ss row qs.length
  (ss.filter (fun x => x.1 ≠ row)) ++ [(row, List.zipWith Quality.worse old qs)]

/-- The slot is written and the write position moves on (R186). -/
def Cap.writeSlot (c : Cap) (channels : List Nat) (values : Vector Sample 96) : Cap :=
  let n := channels.length
  let c := { c with
    mem := writeChannels c.mem (c.area.val * Config.areaWords) n c.row c.phase values 0 channels
    summaries := addSummary c.summaries c.row c.phase (channels.map (fun q => (slotSample values q).quality)) }
  if c.phase = 7 then { c with phase := 0, row := (c.row + 1) % capRows n, filled := min (c.filled + 1) (capRows n) }
  else { c with phase := c.phase + 1 }

/-- CAP takes a closed slot (R186, R190, R191). -/
def Cap.takeSlot (c : Cap) (cfg : CaptureEntry) (values : Vector Sample 96) : Cap :=
  match c.state, c.current with
  | .armed, _ => c.writeSlot cfg.used values
  | .post, some r =>
    let c' := c.writeSlot r.channels values
    if c.phase = 7 ∧ c.row = (r.start + r.length - 1) % capRows r.channels.length then c'.complete cfg r else c'
  | _, _ => c

/-- The device after CAP has taken a closed slot. -/
def Dev.captureSlot (d : Dev) (values : Vector Sample 96) : Dev := { d with cap := d.cap.takeSlot d.tab.capture values }

/-- A trigger's kind is enabled (R188). -/
def CaptureEntry.enables (e : CaptureEntry) : TriggerKind → Bool
  | .element => decide (e.element ≠ 0)
  | .transfer => decide (e.transfer ≠ 0)
  | .gen => decide (e.gen ≠ 0)
  | .manual => decide (e.manual ≠ 0)

/-- A trigger taken while ARMED starts a record (R189). -/
def Cap.startRecord (c : Cap) (cfg : CaptureEntry) (k : TriggerKind) (subject : Nat) (inst ms : Count32) : Cap :=
  let rows := capRows cfg.count
  let pre := if cfg.pre ≤ c.filled then cfg.pre else c.filled
  let r : CapRecord :=
    { area := c.area, gen := tget c.gens c.area, firstInst := inst, firstMs := ms
      triggers := [{ kind := k, subject := subject, inst := inst, ms := ms, offset := pre * 8 + c.phase }]
      start := (c.row + rows - pre) % rows, length := pre + cfg.post, pre := pre, post := cfg.post
      channels := cfg.used }
  { c with state := .post, records := c.records ++ [r] }

/-- The record being made after a trigger taken in POST (R190); `row` and `phase` are the write position. -/
def CapRecord.retrigger (r : CapRecord) (row phase : Nat) (k : TriggerKind) (subject : Nat) (inst ms : Count32) : CapRecord :=
  let rows := capRows r.channels.length
  let at0 := (row + rows - r.start) % rows
  { r with
    length := min rows (max r.length (at0 + r.post))
    count := sat16 r.count
    triggers := if r.triggers.length < 4 then
        r.triggers ++ [{ kind := k, subject := subject, inst := inst, ms := ms, offset := at0 * 8 + phase }]
      else r.triggers }

/-- CAP takes a trigger, or ignores and counts it (R188). -/
def Cap.trigger (c : Cap) (cfg : CaptureEntry) (k : TriggerKind) (subject : Nat) (inst ms : Count32) : Cap :=
  if cfg.enables k then
    match c.state with
    | .armed => c.startRecord cfg k subject inst ms
    | .post => { c with records := c.records.map (fun r =>
        if r.recording then r.retrigger c.row c.phase k subject inst ms else r) }
    | _ => { c with ignored := sat32 c.ignored }
  else { c with ignored := sat32 c.ignored }

/-- A block triggers CAP. -/
def Dev.trigger (d : Dev) (k : TriggerKind) (subject : Nat) : Dev :=
  { d with cap := d.cap.trigger d.tab.capture k subject d.sau.inst d.now }

/-- A completed write of CAPTURE_CONFIG takes effect according to CAP's state (R185); `old` are the settings before it. Arming from
OFF under OVERWRITE spares no record as the one just stored (R187, R191; notes/assumptions/59.md). Turning OFF leaves the position
and the filled count as they are (notes/assumptions/62.md). -/
def Cap.configure (c : Cap) (old new : CaptureEntry) : Cap :=
  match c.state with
  | .off => if new.count ≠ 0 then c.armNext c.orderFromOff new.overwrites none else c
  | .armed =>
    if old.used = new.used then c
    else if new.count = 0 then { c with state := .off }
    else c.arm c.area
  | .post => c
  | .stalled => if new.count = 0 then { c with state := .off } else c

/-- What CAPTURE_READ decides (R194). -/
def Cap.decideRead (c : Cap) (area gen channel first count : Nat) : Nat :=
  match c.find area gen with
  | none => resStale
  | some r =>
    if r.recording then resBusy
    else if r.channels.length ≤ channel then resRange
    else if count = 0 ∨ 8 * r.length < first + count then resRange
    else resOk

/-- CAPTURE_DELETE (R195): its result and CAP after it. -/
def Cap.delete (c : Cap) (area gen : Nat) : Nat × Cap :=
  match c.find area gen with
  | none => (resStale, c)
  | some r =>
    if r.recording then (resBusy, c)
    else if r.locked then (resNotPermitted, c)
    else
      let c := { c with records := c.records.filter (fun x => decide (x.area ≠ r.area)) }
      (resOk, if c.state = .stalled then c.arm r.area else c)

/-- CAPTURE_LOCK and CAPTURE_UNLOCK (R196). -/
def Cap.setLock (c : Cap) (area gen : Nat) (v : Bool) : Nat × Cap :=
  match c.find area gen with
  | none => (resStale, c)
  | some r => (resOk, { c with records := c.records.map (fun x => if x.area = r.area then { x with locked := v } else x) })

end Sys2Proof.Machine
end

