-- ==== Sys2Proof/Machine/Switchgear.lean ====
section
/-!
DEFINITION. Sys2Proof/Machine/Switchgear.lean: the switchgear map (Chapter 5): STATUS frames and forcing, lockouts and
transfer blocks, bus states, claims, requests and close permission, command records and breaker failure. Requests are
answered at once; what SWM reports to CHG and PAR joins `Dev.work`.
-/
namespace Sys2Proof.Machine

/-! ## Positions (R94 to R96) -/

/-- A breaker's status changes and, when its effective position changes with it, the change is reported (R94). -/
def Dev.updateBreaker (d : Dev) (b : Fin 24) (f : BreakerRec → BreakerRec) : Dev :=
  let d' := d.modBreaker b f
  if d'.position b = d.position b then d' else d'.push (.position b)

/-- Forcing of a breaker (R96). -/
def Dev.forceBreaker (d : Dev) (b : Fin 24) (o : ForcedBreaker) : Dev := d.updateBreaker b (fun r => { r with forced := o })

/-- Forcing of every breaker is released, and the changed positions are reported in rising breaker id (R96; notes/assumptions/55.md). -/
def Dev.releaseBreakers (d : Dev) : Dev := forEach (List.finRange 24) (fun b d => d.forceBreaker b .none) d

/-- The status age reaches 3000 ms (R95). -/
def Dev.expireStatusAge (d : Dev) (b : Fin 24) : Dev :=
  if !(d.breaker b).aged && reached (after (d.breaker b).ageFrom Config.statusAgeMs) d.now then
    d.updateBreaker b (fun r => { r with reported := .unknown, aged := true })
  else d

/-! ## Lockouts and transfer blocks (R97, R101) -/

/-- A state store write begins (R205). -/
def Dev.storeJob (d : Dev) (j : StoreJob) : Dev := { d with swm := { d.swm with jobs := d.swm.jobs ++ [j] } }

/-- The stored lockout of a breaker takes a value, in a table set (R97). -/
def Tables.setLockout (t : Tables) (b : Fin 24) (v : Nat) : Tables :=
  { t with breakers := tmod t.breakers b (fun e => { e with lockout := v }) }

/-- The stored transfer block of a bus takes a value, in a table set (R101). -/
def Tables.setBlock (t : Tables) (y : Fin 6) (v : Nat) : Tables :=
  { t with buses := tmod t.buses y (fun e => { e with block := v }) }

/-- A lockout is set or cleared; a value it already has changes nothing (R97, R116). An unused breaker's is set and kept like any
other (notes/assumptions/33.md). -/
def Dev.writeLockout (d : Dev) (b : Fin 24) (v : Bool) : Dev :=
  if d.locked b = v then d
  else Dev.storeJob { d with tab := d.tab.setLockout b (bit v) } (.lockout b (bit v))

/-- A transfer block is set or cleared; a value it already has changes nothing (R101, R117). -/
def Dev.writeBlock (d : Dev) (y : Fin 6) (v : Bool) : Dev :=
  if d.blocked y = v then d
  else Dev.storeJob { d with tab := d.tab.setBlock y (bit v) } (.block y (bit v))

/-- The bus whose transfer block each member of a zone asks for, each distinct bus once (R84). -/
def Dev.zoneBuses (d : Dev) (z : ZoneEntry) : List (Fin 6) :=
  let ms := z.members.toList.take z.count
  ((ms.filterMap (fun m => (toId 24 m.group).bind (fun g => toId 6 (d.groupCfg g).bus)))).eraseDups

/-- The buses that an element blocks by R84 step 4. -/
def Dev.blockBuses (d : Dev) (e : Fin 32) : List (Fin 6) :=
  let c := d.elementCfg e
  if c.kind = 3 then (toId 4 c.source).elim [] (fun z => d.zoneBuses (tget d.tab.zones z))
  else (toId 24 c.source).elim [] (fun g => (toId 6 (d.groupCfg g).bus).toList)

/-- An operated element has the breaker in its trip set with the lockout flag set (R85, R116). -/
def Dev.elementLocks (d : Dev) (b : Fin 24) : Bool :=
  (List.finRange 32).any (fun e =>
    (d.element e).operated && decide ((d.elementCfg e).lockout = 1) && (d.elementCfg e).tripIds.contains b)

/-- An operated element with its transfer-block flag set would block the bus (R117). -/
def Dev.elementBlocks (d : Dev) (y : Fin 6) : Bool :=
  (List.finRange 32).any (fun e =>
    (d.element e).operated && decide ((d.elementCfg e).block = 1) && (d.blockBuses e).contains y)

/-- The operate target LOCKOUT_RESET: its result and the device after it (R116). -/
def Dev.lockoutReset (d : Dev) (b : Fin 24) : Nat × Dev :=
  if d.elementLocks b then (resNotPermitted, d) else (resOk, d.writeLockout b false)

/-- The operate target BLOCK_RESET: its result and the device after it (R117). -/
def Dev.blockReset (d : Dev) (y : Fin 6) : Nat × Dev :=
  if d.elementBlocks y then (resNotPermitted, d) else (resOk, d.writeBlock y false)

/-! ## Bus states (R99, R100) -/

/-- The state that three RMS values with their qualities give, for a nominal voltage and two thresholds (R99). -/
def voltageState (vs : List (Nat × Quality)) (nominal live dead : Nat) : BusState :=
  if vs.all (fun v => v.2.valid && decide (live * nominal ≤ 100 * v.1)) then .live
  else if vs.all (fun v => v.2.valid && decide (100 * v.1 ≤ dead * nominal)) then .dead
  else .indeterminate

/-- The state of a group's voltages by the results of the last instant, INDETERMINATE without phase voltages (R99). -/
def Dev.groupState (d : Dev) (g : Option (Fin 24)) (live dead : Nat) : BusState :=
  match g with
  | none => .indeterminate
  | some k =>
    match (d.groupCfg k).voltages with
    | none => .indeterminate
    | some (a, b, c) =>
      voltageState ([a, b, c].map (fun q => ((d.quantity q).rms, (d.quantity q).quality))) (d.groupCfg k).nominal live dead

/-- A bus takes a state, and a change is reported (R99). -/
def Dev.setBusState (d : Dev) (y : Fin 6) (s : BusState) : Dev :=
  if (d.bus y).state = s then d
  else (d.modBus y (fun r => { r with state := s })).push (.bus y (d.bus y).state)

/-- A bus is evaluated at the instant raised (R99). -/
def Dev.evaluateBus (d : Dev) (y : Fin 6) : Dev :=
  (d.setBusState y (d.groupState (d.busGroup y) (d.busCfg y).live (d.busCfg y).dead)).modBus y
    (fun r => { r with lastAt := d.sau.inst })

/-- The group that measures the generator side of a breaker (R99). -/
def Dev.genSideGroup (d : Dev) (b : Fin 24) : Option (Fin 24) := (d.genOfBreaker b).bind d.genGroup

/-- The generator side of a GEN breaker is evaluated, with the thresholds of its side-1 bus (R99). Until the next instant a breaker
keeps the state that it had, whatever a WRITE changes (notes/assumptions/47.md). -/
def Dev.evaluateGenSide (d : Dev) (b : Fin 24) : Dev :=
  if (d.breakerCfg b).isGen then
    let s := match (d.breakerCfg b).bus1 with
      | some y => d.groupState (d.genSideGroup b) (d.busCfg y).live (d.busCfg y).dead
      | none => .indeterminate
    d.modBreaker b (fun r => { r with genSide := s })
  else d

/-- From an instant on every bus is measured by the group of its entry (R98). -/
def Dev.takeBusSettings (d : Dev) : Dev :=
  { d with swm := { d.swm with buses := d.swm.buses.map (fun r => { r with prior := none }) } }

/-- SWM evaluates every bus and every generator side at a phasor instant (R99), the buses in rising id (notes/assumptions/54.md). -/
def Dev.evaluateBuses (d : Dev) : Dev :=
  forEach (List.finRange 24) (fun b d => d.evaluateGenSide b) (forEach (List.finRange 6) (fun y d => d.evaluateBus y) d)

/-- A group's phase voltages include one of the quantities. -/
def Dev.groupTouched (d : Dev) (qs : List (Fin 96)) (g : Option (Fin 24)) : Bool :=
  g.any (fun k => (roleList (d.groupCfg k).voltages).any qs.contains)

/-- MEAS reports an invalidation of quantities between instants (R100); the buses are taken in rising id (notes/assumptions/54.md). -/
def Dev.invalidateBuses (d : Dev) (qs : List (Fin 96)) : Dev :=
  let d := forEach (List.finRange 6)
    (fun y d => if d.groupTouched qs (d.busGroup y) then d.setBusState y .indeterminate else d) d
  forEach (List.finRange 24)
    (fun b d => if d.groupTouched qs (d.genSideGroup b) then d.modBreaker b (fun r => { r with genSide := .indeterminate })
                else d) d

/-! ## Claims (R102, R103) -/

/-- How SWM decides a claim. -/
inductive ClaimOutcome where
  | granted
  | claimed
  | invalid
  deriving DecidableEq, Repr

/-- A block may hold a claim on a breaker by the breaker's kind (R102, last row). -/
def holderSuits (h : Holder) (isGen : Bool) : Bool :=
  match h with
  | .chg => !isGen
  | .par => isGen
  | .mgt => true

/-- The decision on a claim (R102). -/
def decideClaim (current : Option Holder) (h : Holder) (isGen : Bool) : ClaimOutcome :=
  if !holderSuits h isGen then .invalid
  else match current with
    | none => .granted
    | some x => if x = h then .granted else .claimed

/-- A block asks for a claim on a breaker (R102). A holder that asks again withdraws a release it had asked for. -/
def Dev.claim (d : Dev) (b : Fin 24) (h : Holder) : ClaimOutcome × Dev :=
  match decideClaim (d.breaker b).claim h (d.breakerCfg b).isGen with
  | .granted => (.granted, d.modBreaker b (fun r => { r with claim := some h, releasePending := false }))
  | o => (o, d)

/-- The active record of a breaker is one of the block's own: it made it, be it CHG's protection OPEN of an overlap (R103, R145;
notes/assumptions/34.md). -/
def BreakerRec.ownRecord (r : BreakerRec) (h : Holder) : Bool := r.record.any (fun c => decide (c.requester = .block h))

/-- The claim on a breaker is released and the release reported (R102). -/
def Dev.dropClaim (d : Dev) (b : Fin 24) : Dev :=
  (d.modBreaker b (fun r => { r with claim := none, releasePending := false })).push (.claimReleased b)

/-- A block asks for the release of a breaker (R103): it waits for the end of the block's own record. -/
def Dev.releaseClaim (d : Dev) (b : Fin 24) (h : Holder) : Dev :=
  if (d.breaker b).claim = some h then
    if (d.breaker b).ownRecord h then d.modBreaker b (fun r => { r with releasePending := true }) else d.dropClaim b
  else d

/-- A release that waited for the end of a record takes effect (R103). -/
def Dev.releaseDue (d : Dev) (b : Fin 24) : Dev :=
  match (d.breaker b).claim with
  | some h => if (d.breaker b).releasePending && !(d.breaker b).ownRecord h then d.dropClaim b else d
  | none => d

/-! ## Close permission and classification (R105, R106) -/

/-- A close permissive holds (R105). -/
def Dev.termHolds (d : Dev) (t : PermTerm) : Bool :=
  match t.cond with
  | 0 => (toId 24 t.id).any (fun x => decide (d.position x = .openPos))
  | 1 => (toId 24 t.id).any (fun x => decide (d.position x = .closed))
  | 2 => (toId 6 t.id).any (fun y => decide ((d.bus y).state = .dead))
  | 3 => (toId 6 t.id).any (fun y => decide ((d.bus y).state = .live))
  | _ => false

/-- Every close permissive holds and the entry did not fail its checks at reset (R105, R119). -/
def Dev.permissive (d : Dev) (b : Fin 24) : Bool := !(d.breaker b).failedCfg && (d.breakerCfg b).terms.all d.termHolds

/-- The first reason of R105 to refuse a CLOSE, if any. -/
def Dev.closeRefusal (d : Dev) (b : Fin 24) (h : Holder) : Option Refused :=
  if d.locked b then some .lockout
  else if (d.breaker b).inLocal then some .inLocal
  else if !(d.breaker b).spring then some .spring
  else if d.position b ≠ .openPos then some .notOpen
  else if !d.permissive b then some .permissive
  else if decide (h ≠ .mgt) && d.sideBlocked b then some .blocked
  else none

/-- A breaker other than b has an active CLOSE record and the bus as a side (R106). -/
def Dev.closingOnto (d : Dev) (b : Fin 24) (y : Fin 6) : Bool :=
  (List.finRange 24).any (fun x => decide (x ≠ b) && (d.breakerCfg x).sideBuses.contains y
    && (d.breaker x).record.any (fun r => decide (r.action = .closeIt)))

/-- The state of a side bus as a CLOSE of breaker b counts it; an absent side counts as DEAD (R106). -/
def Dev.sideState (d : Dev) (b : Fin 24) (side : Option (Fin 6)) : BusState :=
  match side with
  | none => .dead
  | some y => if (d.bus y).state = .dead ∧ d.closingOnto b y then .live else (d.bus y).state

/-- The states of the two sides of a breaker (R106). -/
def Dev.sides (d : Dev) (b : Fin 24) : BusState × BusState :=
  (d.sideState b (d.breakerCfg b).bus1,
   if (d.breakerCfg b).isGen then (d.breaker b).genSide else d.sideState b (d.breakerCfg b).bus2)

/-- A synchroniser result: the breaker and the two consecutive instants (R106). -/
structure SyncResult where
  breaker : Fin 24
  first   : Count32
  second  : Count32
  deriving DecidableEq, Repr

/-- A synchroniser result is valid for a breaker (R106). -/
def Dev.syncValid (d : Dev) (b : Fin 24) (r : Option SyncResult) : Bool :=
  r.any (fun x => decide (x.breaker = b ∧ x.second = d.sau.inst))

/-- The class of a CLOSE: refused, or accepted (R106). -/
def Dev.classify (d : Dev) (b : Fin 24) (h : Holder) (r : Option SyncResult) : Option Refused :=
  match d.sides b with
  | (.indeterminate, _) | (_, .indeterminate) => some .indeterminate
  | (.live, .live) =>
    if h = .mgt then some .notDeadBus else if d.syncValid b r then none else some .noSync
  | _ => none

/-! ## The command record (R107 to R112) -/

/-- The record that is made for an accepted request (R107). -/
def Dev.makeRecord (d : Dev) (b : Fin 24) (a : Action) (prot arm : Bool) (q : Requester) : CmdRecord :=
  { id := (d.breaker b).nextId, action := a, prot := prot, requester := q, issue := d.now
    nextRepeat := after d.now 2, opEnd := after d.now (d.breakerCfg b).timeout
    bfEnd := if arm then some (after d.now (d.breakerCfg b).bfDelay) else none
    tellChg := prot && decide (q = .block .chg) }

/-- A record is made for an accepted request and its frame enqueued (R107). -/
def Dev.startRecord (d : Dev) (b : Fin 24) (a : Action) (prot arm : Bool) (q : Requester) : Dev :=
  let r := d.makeRecord b a prot arm q
  let d := d.modBreaker b (fun x => { x with record := some r, nextId := x.nextId + 1 })
  d.enqueueCommand b prot (d.commandFrame b r)

/-- The reports at the end of a record (R112). -/
def Dev.reportEnd (d : Dev) (b : Fin 24) (r : CmdRecord) (e : RecordEnd) : Dev :=
  if r.prot then
    let d := if r.tellChg then d.push (.protOpenEnded b r.id r.action e) else d
    if e = .done ∧ (d.breakerCfg b).isGen then d.push (.genTripDone b) else d
  else match r.requester with
    | .block .mgt => if (d.breaker b).claim = some .mgt then d.dropClaim b else d
    | .block h => d.push (.recordEnded h b r.id r.action e)
    | _ => d

/-- The active record of a breaker ends (R109, R110, R111, R112). -/
def Dev.endRecord (d : Dev) (b : Fin 24) (e : RecordEnd) : Dev :=
  match (d.breaker b).record with
  | none => d
  | some r =>
    let d := (d.modBreaker b (fun x => { x with record := none, outcome := e })).removeCommand b
    let d := d.reportEnd b r e
    if (d.breaker b).releasePending then d.push (.releaseDue b) else d

/-- The interval from the copy with a repeat number to the next (R108). -/
def repeatInterval : Nat → Nat
  | 0 => 2
  | 1 => 4
  | 2 => 8
  | 3 => 16
  | 4 => 32
  | _ => 50

/-- A record after a repeat (R108). -/
def CmdRecord.afterRepeat (r : CmdRecord) : CmdRecord :=
  { r with repeatNo := min 255 (r.repeatNo + 1)
           nextRepeat := after r.nextRepeat (repeatInterval (r.repeatNo + 1)) }

/-- A repeat falls due (R108). -/
def Dev.commandRepeat (d : Dev) (b : Fin 24) : Dev :=
  match (d.breaker b).record with
  | none => d
  | some r =>
    if reached r.nextRepeat d.now then
      let r' := r.afterRepeat
      let d := d.modBreaker b (fun x => { x with record := some r' })
      d.enqueueCommand b r.prot (d.commandFrame b r')
    else d

/-! ## Requests (R104, R111) -/

/-- A request for a breaker operation (R104). -/
structure OpRequest where
  breaker   : Fin 24
  action    : Action
  requester : Requester
  prot      : Bool := false
  arm       : Bool := false
  sync      : Option SyncResult := none
  deriving DecidableEq, Repr

/-- The block that makes a request; a protection request has none that matters to claims and closes. -/
def OpRequest.block (q : OpRequest) : Option Holder :=
  if q.prot then none else match q.requester with
    | .block h => some h
    | _ => none

/-- The tests of R104 after the claim: the active record, then close permission and classification for a CLOSE. A protection
OPEN that finds a protection OPEN joins it (R111). -/
def Dev.decideRequest (d : Dev) (q : OpRequest) : Option Refused :=
  match (d.breaker q.breaker).record with
  | some _ => if q.prot then none else some .busy
  | none =>
    match q.action, q.block with
    | .closeIt, some h =>
      match d.closeRefusal q.breaker h with
      | some r => some r
      | none => d.classify q.breaker h q.sync
    | _, _ => none

/-- A protection OPEN joins the protection record of its breaker (R111). -/
def Dev.joinRecord (d : Dev) (b : Fin 24) (r : CmdRecord) (q : OpRequest) : Dev :=
  d.modBreaker b (fun x => { x with record := some { r with
    bfEnd := if q.arm ∧ r.bfEnd = none then some (after d.now (d.breakerCfg b).bfDelay) else r.bfEnd
    tellChg := r.tellChg || decide (q.requester = .block .chg) } })

/-- An accepted request makes a record, or joins or supersedes one (R107, R111): the command id and the device. -/
def Dev.accept (d : Dev) (q : OpRequest) : Count16 × Dev :=
  match (d.breaker q.breaker).record with
  | some r =>
    if r.prot then (r.id, d.joinRecord q.breaker r q)
    else
      let d := d.endRecord q.breaker .superseded
      ((d.breaker q.breaker).nextId, d.startRecord q.breaker q.action q.prot q.arm q.requester)
  | none => ((d.breaker q.breaker).nextId, d.startRecord q.breaker q.action q.prot q.arm q.requester)

/-- SWM's answer to a request: the command id, or the refusal. -/
abbrev Answer := Except Refused Count16

/-- The tests after the mode, for a request that is not a protection OPEN: the claim is taken with the request, and released
again when the request is refused (R102, R104). -/
def Dev.requestClaimed (d : Dev) (q : OpRequest) (h : Holder) : Answer × Dev :=
  let had := (d.breaker q.breaker).claim
  match d.claim q.breaker h with
  | (.granted, d') =>
    match d'.decideRequest q with
    | some r => (.error r, if had = none then d'.dropClaim q.breaker else d)
    | none => let x := d'.accept q; (.ok x.1, x.2)
  | (_, _) => (.error .claimed, d)

/-- SWM takes a request and answers it (R104, R118). -/
def Dev.request (d : Dev) (q : OpRequest) : Answer × Dev :=
  if !(d.breakerCfg q.breaker).used then (.error .permissive, d)
  else match q.block with
    | some h => if d.mode = .service ∧ h ≠ .mgt then (.error .mode, d) else d.requestClaimed q h
    | none => let x := d.accept q; (.ok x.1, x.2)

/-- A protection OPEN; its answer has no one to tell (R84, R114). -/
def Dev.protOpen (d : Dev) (b : Fin 24) (arm : Bool) (q : Requester) : Dev :=
  (d.request { breaker := b, action := .openIt, requester := q, prot := true, arm := arm }).2

/-- The management result of a refusal (R104). -/
def Refused.result : Refused → Nat
  | .claimed => resClaimed
  | .busy => resBusy
  | _ => resNotPermitted

/-! ## Breaker failure (R113, R114) -/

/-- Breaker failure operates for a breaker whose record had the command id (R114). -/
def Dev.breakerFailure (d : Dev) (b : Fin 24) (id : Count16) : Dev :=
  let backups := (d.breakerCfg b).backupIds
  let d := forEach backups (fun x d => (d.writeLockout x true).protOpen x false (.failure b)) d
  (d.recordError .bfOperated b.val).bfNotice b id backups.length

/-- A record's breaker-failure timer is still running (R110, R113). -/
def CmdRecord.bfRunning (r : CmdRecord) : Bool := r.bfEnd.isSome && !r.bfOperated

/-- The operate timer of a breaker's record expires (R110). -/
def Dev.expireOperate (d : Dev) (b : Fin 24) : Dev :=
  match (d.breaker b).record with
  | none => d
  | some r =>
    if reached r.opEnd d.now then
      let d := (d.endRecord b .failed).recordError .operateTimeout b.val
      if r.bfRunning then d.breakerFailure b r.id else d
    else d

/-- The breaker-failure timer of a breaker's record expires (R113). -/
def Dev.expireBreakerFailure (d : Dev) (b : Fin 24) : Dev :=
  match (d.breaker b).record with
  | none => d
  | some r =>
    if r.bfRunning && reached? r.bfEnd d.now then
      (d.modBreaker b (fun x => { x with record := some { r with bfOperated := true } })).breakerFailure b r.id
    else d

/-! ## STATUS frames (R94, R109) -/

/-- The position that confirms a record (R109). -/
def Action.target : Action → Position
  | .openIt => .openPos
  | .closeIt => .closed

/-- A record is confirmed by the position just reported (R109). -/
def Dev.confirm (d : Dev) (b : Fin 24) (p : Position) : Dev :=
  match (d.breaker b).record with
  | some r => if r.action.target = p then d.endRecord b .done else d
  | none => d

/-- A change of effective position is reported (R94). -/
def Dev.reportPosition (d : Dev) (b : Fin 24) (changed : Bool) : Dev := if changed then d.push (.position b) else d

/-- SWM takes a STATUS frame for a breaker (R94). When the frame both ends a protection OPEN of a GEN breaker and changes its
effective position, R169 leaves open which report PAR takes first (notes/assumptions/2.md). -/
def Dev.takeStatus (d : Dev) (b : Fin 24) (p : Position) (spring inLocal : Bool) : Dev :=
  let d' := d.modBreaker b (fun r =>
    { r with reported := p, inLocal := inLocal, spring := spring, ageFrom := d.now, aged := false })
  let changed := decide (d'.position b ≠ d.position b)
  let trip := (d.breaker b).record.any (fun r => r.prot) && (d.breakerCfg b).isGen && decide (p = .openPos)
  if changed && trip then
    let t := d'.drawTie
    if t.1 then (t.2.reportPosition b true).confirm b p else (t.2.confirm b p).reportPosition b true
  else (d'.reportPosition b changed).confirm b p

end Sys2Proof.Machine
end

