-- ==== Sys2Proof/Machine/Measurement.lean ====
section
/-!
DEFINITION. Sys2Proof/Machine/Measurement.lean: the measurement engine (Chapter 3): windows, phasors, magnitudes, derived
values, frequency, the vector window test, the inverse-time index and invalidation.
-/
namespace Sys2Proof.Machine

/-! ## Coefficients (R45) -/

/-- The 80 cosine coefficients C_k (R45). -/
def cosTab : List Int :=
  [32767, 32667, 32365, 31863, 31164, 30274, 29197, 27939, 26510, 24917] ++
  [23170, 21281, 19261, 17121, 14876, 12540, 10126, 7650, 5126, 2571] ++
  [0, -2571, -5126, -7650, -10126, -12540, -14876, -17121, -19261, -21281] ++
  [-23170, -24917, -26510, -27939, -29197, -30274, -31164, -31863, -32365, -32667] ++
  [-32768, -32667, -32365, -31863, -31164, -30274, -29197, -27939, -26510, -24917] ++
  [-23170, -21281, -19261, -17121, -14876, -12540, -10126, -7650, -5126, -2571] ++
  [0, 2571, 5126, 7650, 10126, 12540, 14876, 17121, 19261, 21281] ++
  [23170, 24917, 26510, 27939, 29197, 30274, 31164, 31863, 32365, 32667]

/-- The 80 sine coefficients S_k: the sine is the cosine a quarter cycle earlier (R45). -/
def sinTab : List Int := cosTab.drop 60 ++ cosTab.take 60

/-! ## Phasors (R46 to R48, R50) -/

/-- The sum of the products of two lists (R46). -/
def dotSum : List Int → List Int → Int
  | x :: xs, c :: cs => x * c + dotSum xs cs
  | _, _ => 0

/-- The peak phasor of a window, oldest sample first (R46, R47). -/
def windowPhasor (xs : List Int) : Phasor :=
  { re := roundDiv (dotSum xs cosTab) 1310720, im := roundDiv (-(dotSum xs sinTab)) 1310720 }

/-- M2, the exact square of the peak magnitude (R48). -/
def Phasor.m2 (p : Phasor) : Nat := (p.re * p.re + p.im * p.im).toNat

/-- RMS from M2, each step floored (R48). -/
def rmsOf (m2 : Nat) : Nat := isqrt (m2 / 2)

/-- The sum of two phasors (R50). -/
def Phasor.add (p q : Phasor) : Phasor := { re := p.re + q.re, im := p.im + q.im }

/-- A phasor with weight −1 (R50). -/
def Phasor.neg (p : Phasor) : Phasor := { re := -p.re, im := -p.im }

/-- The exact sum of phasors (R50). -/
def Phasor.sum (ps : List Phasor) : Phasor := ps.foldl Phasor.add {}

/-- The quality that a set of quantities gives a derived value (R52). -/
def derivedQuality (qs : List Quality) : Quality :=
  if qs.any (fun q => !q.valid) then .invalid
  else if qs.any (fun q => decide (q = .held)) then .held
  else .good

/-! ## Quantities (R43, R44, R48) -/

/-- The window with a new sample; the oldest leaves (R43). -/
def pushWindow (w : Vector Sample 80) (x : Sample) : Vector Sample 80 :=
  Vector.ofFn (fun i => if h : i.val + 1 < 80 then w[i.val + 1] else x)

/-- Every quantity takes the closed slot's value and quality (R43). -/
def Meas.takeSlot (m : Meas) (values : Vector Sample 96) : Meas :=
  { m with quantities := Vector.ofFn (fun q =>
      let r := tget m.quantities q
      { r with window := pushWindow r.window (tget values q) }) }

/-- The quality of a window (R44): the mapping stream is LOCKED or HOLDING. -/
def windowQuality (w : Vector Sample 80) : Quality :=
  if w.toList.any (fun x => decide (x.quality = .invalid)) then .invalid
  else if w.toList.any (fun x => decide (x.quality = .held ∨ x.quality = .questionable)) then .held
  else .good

/-- The mapping stream of a quantity is LOCKED or HOLDING (R44). -/
def Dev.computed (d : Dev) (q : Fin 96) : Bool :=
  (d.tab.streamOf q).any (fun i => (tget d.sau.streams i).state.inService)

/-- A quantity's results at an instant (R44, R48). -/
def QuantityRec.atInstant (r : QuantityRec) (computed : Bool) (inst : Count32) : QuantityRec :=
  let p : Phasor := if computed then windowPhasor (r.window.toList.map Sample.value) else {}
  { r with phasor := p, m2 := p.m2, rms := rmsOf p.m2
           quality := if computed then windowQuality r.window else .invalid
           prev := some (r.phasor, r.quality), lastAt := inst }

/-! ## Groups (R50 to R56) -/

/-- The qualities of quantities. -/
def Dev.qualities (d : Dev) (qs : List (Fin 96)) : List Quality := qs.map (fun q => (d.quantity q).quality)

/-- The residual of a group at an instant (R50). -/
def Dev.residual (d : Dev) (e : GroupEntry) (r : GroupRec) : GroupRec :=
  match e.residualIds with
  | [] => { r with resid := {}, residM2 := 0, residRms := 0, residQ := .invalid }
  | ids =>
    let p := Phasor.sum (ids.map (fun q => (d.quantity q).phasor))
    { r with resid := p, residM2 := p.m2, residRms := rmsOf p.m2, residQ := derivedQuality (d.qualities ids) }

/-- The real part of V times the conjugate of I (R51). -/
def realProduct (v i : Phasor) : Int := v.re * i.re + v.im * i.im
/-- The imaginary part of V times the conjugate of I (R51). -/
def imagProduct (v i : Phasor) : Int := v.im * i.re - v.re * i.im

/-- The power of a group at an instant (R51). -/
def Dev.power (d : Dev) (e : GroupEntry) (r : GroupRec) : GroupRec :=
  match e.voltages, e.currents with
  | some (va, vb, vc), some (ia, ib, ic) =>
    let ph := fun (q : Fin 96) => (d.quantity q).phasor
    { r with
      p := roundDiv (realProduct (ph va) (ph ia) + realProduct (ph vb) (ph ib) + realProduct (ph vc) (ph ic)) 20000000
      q := roundDiv (imagProduct (ph va) (ph ia) + imagProduct (ph vb) (ph ib) + imagProduct (ph vc) (ph ic)) 20000000
      powerQ := derivedQuality (d.qualities [va, vb, vc, ia, ib, ic]) }
  | _, _ => { r with p := 0, q := 0, powerQ := .invalid }

/-- The frequency reference: the first phase whose voltage is valid (R54). -/
def Dev.frequencyRef (d : Dev) (va vb vc : Fin 96) : Option (Phase × Fin 96) :=
  if (d.quantity va).quality.valid then some (.a, va)
  else if (d.quantity vb).quality.valid then some (.b, vb)
  else if (d.quantity vc).quality.valid then some (.c, vc)
  else none

/-- The common shift of a normalisation, from a bound of at most `fuel` (R53). -/
def normShift (m : Nat) : Nat → Nat → Nat
  | 0, s => s
  | fuel + 1, s => if m / 2 ^ s < 32768 then s else normShift m fuel (s + 1)

/-- Two phasors normalised together (R53). -/
def normalise (a b : Phasor) : Phasor × Phasor :=
  let m := max (max a.re.natAbs a.im.natAbs) (max b.re.natAbs b.im.natAbs)
  let k : Int := 2 ^ normShift m 10 0
  ({ re := truncDiv a.re k, im := truncDiv a.im k }, { re := truncDiv b.re k, im := truncDiv b.im k })

/-- The products dot and cross of two phasors, normalised together (R53). -/
def dotCross (a b : Phasor) : Int × Int :=
  let n := normalise a b
  (n.1.re * n.2.re + n.1.im * n.2.im, n.1.re * n.2.im - n.1.im * n.2.re)

/-- The instant frequency value from the previous and the present phasor, missing when dot is not positive (R55). -/
def instantFrequency (k : Nat) (prev now : Phasor) : Option Int :=
  let x := dotCross { re := -prev.im, im := prev.re } now
  if x.1 ≤ 0 then none else some (clamp (-5000) 5000 (roundDiv ((k : Int) * x.2) x.1.toNat))

/-- The outcome of an instant for a group with a reference (R55). -/
def Dev.frequencyOutcome (d : Dev) (nominal : Nat) (q : Fin 96) : Option (Int × Quality) :=
  let r := d.quantity q
  match r.prev with
  | none => none
  | some (p, pq) =>
    if pq = .invalid ∨ 10 * r.rms < nominal then none
    else (instantFrequency (Config.kFrequency d.f60) p r.phasor).map (fun v =>
      (v, if r.quality = .held ∨ pq = .held then Quality.held else .good))

/-- The group's history and frequency deviation after an outcome (R56). -/
def GroupRec.takeOutcome (r : GroupRec) (o : Option (Int × Quality)) : GroupRec :=
  let hist := (r.hist ++ [o]).drop (r.hist.length - 3)
  let missing := if o.isSome then 0 else min 4 (r.missing + 1)
  let r := { r with hist := hist, missing := missing }
  let values := hist.filterMap id
  if values.length = 4 then
    { r with df := truncDiv ((values.map (fun v => v.1)).foldl (· + ·) 0) 4
             dfQ := if values.any (fun v => decide (v.2 = .held)) then .held else .good }
  else if missing = 4 then { r with dfQ := .invalid }
  else if r.dfQ.valid then { r with dfQ := .held }
  else r

/-- The frequency of a group at an instant (R54 to R56). -/
def Dev.frequency (d : Dev) (e : GroupEntry) (r : GroupRec) : GroupRec :=
  match e.voltages with
  | none => { r with ref := none, df := 0, dfQ := .invalid }
  | some (va, vb, vc) =>
    let x := d.frequencyRef va vb vc
    { r with ref := x.map Prod.fst }.takeOutcome (x.bind (fun y => d.frequencyOutcome e.nominal y.2))

/-- A used group's results at an instant (R59). -/
def Dev.groupAtInstant (d : Dev) (g : Fin 24) : GroupRec :=
  let e := d.groupCfg g
  if e.unused then d.group g
  else { d.frequency e (d.power e (d.residual e (d.group g))) with lastAt := d.sau.inst }

/-- MEAS at a phasor instant: every quantity, then every used group (R59). -/
def Dev.measure (d : Dev) : Dev :=
  let d := { d with meas := { d.meas with
    quantities := Vector.ofFn (fun q => (d.quantity q).atInstant (d.computed q) d.sau.inst) } }
  { d with meas := { d.meas with groups := Vector.ofFn d.groupAtInstant } }

/-- The state of a group whose entry is written (R49). Its frequency reference stands until the next instant
(notes/assumptions/40.md). -/
def GroupRec.restart (r : GroupRec) : GroupRec :=
  { r with resid := {}, residM2 := 0, residRms := 0, residQ := .invalid, p := 0, q := 0, powerQ := .invalid, df := 0,
           dfQ := .invalid, hist := [], missing := 4 }

/-! ## Invalidation (R60) -/

/-- A quantity is invalidated (R60). -/
def QuantityRec.invalidate (r : QuantityRec) : QuantityRec :=
  { r with phasor := {}, m2 := 0, rms := 0, quality := .invalid }

/-- A group that uses an invalidated quantity recomputes its residual and power qualities (R60). -/
def Dev.invalidateGroup (d : Dev) (qs : List (Fin 96)) (g : Fin 24) : GroupRec :=
  let e := d.groupCfg g
  let r := d.group g
  let r := if e.residualIds.any qs.contains then { r with residQ := derivedQuality (d.qualities e.residualIds) } else r
  match e.voltages, e.currents with
  | some (va, vb, vc), some (ia, ib, ic) =>
    let ids := [va, vb, vc, ia, ib, ic]
    if ids.any qs.contains then { r with powerQ := derivedQuality (d.qualities ids) } else r
  | _, _ => r

/-- MEAS invalidates quantities between instants (R60). -/
def Dev.measInvalidate (d : Dev) (qs : List (Fin 96)) : Dev :=
  let d := { d with meas := { d.meas with
    quantities := Vector.ofFn (fun q => if qs.contains q then (d.quantity q).invalidate else d.quantity q) } }
  { d with meas := { d.meas with groups := Vector.ofFn (d.invalidateGroup qs) } }

/-! ## The vector window test (R57) and the inverse-time index (R58) -/

/-- The vector window test of a reference and an incoming phasor (R57). -/
def vectorWindow (r i : Phasor) (rq iq : Quality) (t : Nat) : VectorResult :=
  if !rq.valid || !iq.valid then .invalid
  else
    let x := dotCross r i
    if 0 < x.1 ∧ 65536 * (x.2 * x.2) ≤ (t : Int) * (x.1 * x.1) then .inside else .outside

/-- The inverse-time index of a squared peak magnitude at a pickup (R58). -/
def inverseIndex (m2 pickup : Nat) : Nat :=
  let mq := isqrt (128 * m2 / (pickup * pickup))
  if 512 ≤ mq then 47
  else if mq < 16 then 0
  else
    let e := Nat.log2 mq
    8 * (e - 4) + (mq / 2 ^ (e - 3)) % 8

end Sys2Proof.Machine
end

