-- ==== Sys2Proof/Machine/Paralleling.lean ====
section
/-!
DEFINITION. Sys2Proof/Machine/Paralleling.lean: the paralleling unit (Chapter 7): genset states, demand, the dead-bus grant,
the synchroniser, load sharing, unloading, setpoints and failures. PAR asks SWM at once; what it owes itself (meeting demand,
judging the grant, examining a free synchroniser) and what it tells CHG joins `Dev.work`.
-/
namespace Sys2Proof.Machine

/-! ## Moves between states (R156, R158, R163, R168, R169) -/

/-- The synchroniser serves the request of a set. -/
def Dev.servesGen (d : Dev) (g : Fin 6) : Bool := decide (d.par.sync.served = some (.gen g))

/-- The synchroniser serves CHG's bus request. -/
def Dev.servesBus (d : Dev) : Bool :=
  match d.par.sync.served with
  | some (.bus _) => true
  | _ => false

/-- A service ends (R168). -/
def Dev.endService (d : Dev) : Dev :=
  Dev.push .examineSync { d with par := { d.par with sync := { d.par.sync with served := none, accepted := false, met := 0 } } }

/-- The dead-bus grant is released or withdrawn (R163). -/
def Dev.releaseGrant (d : Dev) : Dev := Dev.push .judgeGrant { d with par := { d.par with grant := none } }

/-- A set that leaves CLOSING or DEAD_BUS_WAIT gives up the grant it holds. The grant of a holder that enters ON_BUS is released
without passing on: the generator bus becomes LIVE at a following instant (R163; notes/assumptions/7.md). -/
def Dev.leaveGrant (d : Dev) (s : GenState) : Dev :=
  if s = .onBus then { d with par := { d.par with grant := none } } else d.releaseGrant

/-- SYNC_WAIT and SYNCING, between which the sync timer runs on (R158). -/
def GenState.inSync : GenState → Bool
  | .syncWait | .syncing => true
  | _ => false

/-- A set moves to a state. Its timer stops unless it moves between SYNC_WAIT and SYNCING; a grant it holds is released
unless it is in DEAD_BUS_WAIT or CLOSING (R163), its service ends unless it is in SYNC_WAIT, SYNCING or CLOSING (R158, R168);
CHG is told when it enters or leaves ON_BUS (R169); demand is met again as R160 states. -/
def Dev.moveGen (d : Dev) (g : Fin 6) (s : GenState) (f : GenRec → GenRec) : Dev :=
  let old := (d.gen g).state
  let d := d.modGen g (fun r => f { r with state := s, timer := if old.inSync && s.inSync then r.timer else none })
  let d := if decide (d.par.grant = some g) && decide (s ≠ .deadBusWait) && decide (s ≠ .closing) then d.leaveGrant s else d
  let d := if d.servesGen g && !s.inSync && decide (s ≠ .closing) then d.endService else d
  let d := if decide (old = .onBus) != decide (s = .onBus) then d.push .onBusChanged else d
  if old = .closing ∨ s = .stopped ∨ s = .failed then d.push .meetDemand else d

/-! ## Setpoints and biases -/

/-- A SETPOINT frame is enqueued for a set (R176). -/
def Dev.sendSetpoint (d : Dev) (g : Fin 6) (run : Bool) (speed volt : Int) : Dev :=
  d.enqueueSetpoint g (d.setpointFrame g run speed volt)

/-- The speed bias changes, clamped (R154). -/
def GenRec.addSpeed (r : GenRec) (x : Int) : GenRec := { r with speed := clamp (-500) 500 (r.speed + x) }

/-- The voltage bias changes, clamped (R154). -/
def GenRec.addVolt (r : GenRec) (x : Int) : GenRec := { r with volt := clamp (-1000) 1000 (r.volt + x) }

/-- The biases and targets become 0. -/
def GenRec.zero (r : GenRec) : GenRec := { r with speed := 0, volt := 0, load := 0, reactive := 0 }

/-- The power results of a set's group. -/
def Dev.genPower (d : Dev) (g : Fin 6) : Int × Int × Bool :=
  match d.genGroup g with
  | some k => ((d.group k).p, (d.group k).q, (d.group k).powerQ.valid)
  | none => (0, 0, false)

/-- The targets on entry to ON_BUS (R169). -/
def GenRec.takeTargets (r : GenRec) (x : Int × Int × Bool) : GenRec :=
  if x.2.2 then { r with load := max 0 x.1, reactive := x.2.1 } else { r with load := 0, reactive := 0 }

/-! ## Failure (R177, R178) -/

/-- PAR's own active record for a set's breaker: its action. -/
def Dev.parRecord (d : Dev) (b : Fin 24) : Option Action :=
  match (d.breaker b).record with
  | some r => if !r.prot && decide (r.requester = .block .par) then some r.action else none
  | none => none

/-- PAR asks for an OPEN of a set's breaker whose outcome is not judged (R178). -/
def Dev.openUnjudged (d : Dev) (g : Fin 6) (b : Fin 24) : Dev :=
  match d.request { breaker := b, action := .openIt, requester := .block .par } with
  | (.ok id, d') => d'.modGen g (fun r => { r with cmdId := some id })
  | (.error _, d') => d'

/-- Step 3 of R178. -/
def Dev.openFailed (d : Dev) (g : Fin 6) (b : Fin 24) : Dev :=
  match d.parRecord b with
  | some .closeIt => d.modGen g (fun r => { r with openOnDone := true })
  | some .openIt => d
  | none => if d.position b = .closed ∨ d.position b = .travelling then d.openUnjudged g b else d

/-- A set enters FAILED with a reason, unless it is FAILED already (R177, R178). -/
def Dev.failGen (d : Dev) (g : Fin 6) (reason : GenReason) : Dev :=
  let left := (d.gen g).state
  if left = .failed then d
  else
    let d := d.moveGen g .failed (fun r => { r with reason := reason, wantClaim := false })
    let d := match d.genBreaker g with
      | some b => (d.openFailed g b).releaseClaim b .par
      | none => d
    let d := if reason = .manual then d else d.sendSetpoint g false 0 0
    let d := d.modGen g GenRec.zero
    (d.recordError .genFailed g.val).genNotice g reason left

/-! ## Stopping (R175) -/

/-- A set enters STOPPED (R175, R179). -/
def Dev.toStopped (d : Dev) (g : Fin 6) : Dev :=
  let d := d.moveGen g .stopped (fun r => { r.zero with reason := .none, wantClaim := false })
  match d.genBreaker g with
  | some b => d.releaseClaim b .par
  | none => d

/-- A STOPPING set is judged by its engine state (R175). -/
def Dev.judgeStopping (d : Dev) (g : Fin 6) : Dev :=
  match (d.gen g).engine with
  | .stopped => d.toStopped g
  | .fault => d.failGen g .engine
  | _ => d

/-- A set enters STOPPING (R175). -/
def Dev.toStopping (d : Dev) (g : Fin 6) : Dev :=
  ((d.moveGen g .stopping id).sendSetpoint g false 0 0).judgeStopping g

/-- A set enters COOLDOWN; a cooldown of 0 enters STOPPING at once (R175). -/
def Dev.toCooldown (d : Dev) (g : Fin 6) : Dev :=
  let t := (d.genCfg g).cooldown
  let d := d.moveGen g .cooldown (fun r => { r with timer := some (after d.now (t * 1000)) })
  if t = 0 then d.toStopping g else d

/-- A set enters OPENING (R175). -/
def Dev.toOpening (d : Dev) (g : Fin 6) : Dev :=
  let d := d.moveGen g .opening id
  match d.genBreaker g with
  | none => d
  | some b =>
    if d.position b = .openPos then d.toCooldown g
    else match d.request { breaker := b, action := .openIt, requester := .block .par } with
      | (.ok id, d') => d'.modGen g (fun r => { r with cmdId := some id })
      | (.error _, d') => d'.failGen g .openFailed

/-- A set enters UNLOADING (R173). -/
def Dev.toUnloading (d : Dev) (g : Fin 6) : Dev :=
  let x := d.genPower g
  if (d.gen g).state = .onBus ∧ x.2.2 then d.moveGen g .unloading (fun r => { r with load := max 0 x.1 })
  else d.moveGen g .unloading id

/-! ## Starting and routing (R157, R158) -/

/-- A set enters DEAD_BUS_WAIT (R158, R161). -/
def Dev.toDeadBusWait (d : Dev) (g : Fin 6) : Dev := (d.moveGen g .deadBusWait id).push .judgeGrant

/-- A set enters SYNC_WAIT from a state other than SYNCING (R158). -/
def Dev.toSyncWait (d : Dev) (g : Fin 6) : Dev :=
  (d.moveGen g .syncWait (fun r => { r with timer := some (after d.now ((d.genCfg g).syncTimeout * 1000)) })).push
    .examineSync

/-- A set in AVAILABLE is routed by the generator bus's state (R158). -/
def Dev.routeGen (d : Dev) (g : Fin 6) : Dev :=
  match d.genBusState with
  | .dead => d.toDeadBusWait g
  | .live => d.toSyncWait g
  | .indeterminate => d

/-- The conditions on which a set leaves STARTING for AVAILABLE (R157). -/
def Dev.startMet (d : Dev) (g : Fin 6) : Bool :=
  match d.genBreaker g, d.genGroup g with
  | some b, some k =>
    decide ((d.breaker b).claim = some .par) && decide ((d.gen g).engine = .running) && (d.gen g).ready
      && decide ((d.breaker b).genSide = .live) && (d.group k).dfQ.valid
      && decide (-500 ≤ (d.group k).df ∧ (d.group k).df ≤ 500)
  | _, _ => false

/-- A set in STARTING is judged (R157). -/
def Dev.judgeStarting (d : Dev) (g : Fin 6) : Dev :=
  if decide ((d.gen g).state = .starting) && d.startMet g then (d.moveGen g .available id).routeGen g else d

/-- PAR asks SWM for the claim on a set's breaker, to ask again when it is refused CLAIMED (R157, R180). -/
def Dev.claimGen (d : Dev) (g : Fin 6) : Dev :=
  match d.genBreaker g with
  | none => d
  | some b =>
    match d.claim b .par with
    | (.granted, d') => (d'.modGen g (fun r => { r with wantClaim := false })).judgeStarting g
    | (_, d') => d'.modGen g (fun r => { r with wantClaim := true })

/-- A set enters STARTING (R157). -/
def Dev.toStarting (d : Dev) (g : Fin 6) : Dev :=
  (d.moveGen g .starting (fun r =>
    { r.zero with timer := some (after d.now ((d.genCfg g).startTimeout * 1000)) })).claimGen g

/-! ## Demand (R159, R160) -/

/-- Starts the selectable sets of a list until the committed count reaches the demand (R160). -/
def Dev.startSets (d : Dev) (gs : List (Fin 6)) : Dev :=
  forEach gs (fun g d =>
    if decide (d.committedCount < d.par.demand) && d.selectable g && decide (d.mode ≠ .service) then d.toStarting g else d) d

/-- A committed set is shed (R160). -/
def Dev.shedSet (d : Dev) (g : Fin 6) : Dev :=
  match (d.gen g).state with
  | .starting => d.toStopping g
  | .available | .deadBusWait | .syncWait | .syncing => d.toCooldown g
  | .onBus | .unloadHeld => if d.genBusIslanded then d.toOpening g else d.toUnloading g
  | _ => d

/-- Sheds the committed sets of a list until the committed count equals the demand (R160). -/
def Dev.shedSets (d : Dev) (gs : List (Fin 6)) : Dev :=
  forEach gs (fun g d => if decide (d.par.demand < d.committedCount) then d.shedSet g else d) d

/-- PAR meets the demand (R160). -/
def Dev.meetDemand (d : Dev) : Dev :=
  if d.par.settled then (d.startSets d.gensByRank).shedSets d.gensByRank.reverse else d

/-- A set returns to ON_BUS with its load target kept; its reactive target is that of an entry (R159, R169). -/
def Dev.returnToBus (d : Dev) (g : Fin 6) : Dev :=
  match (d.gen g).state with
  | .unloading | .unloadHeld =>
    d.moveGen g .onBus (fun r => { r with reactive := (r.takeTargets (d.genPower g)).reactive })
  | _ => d

/-- CHG asks PAR to set the demand: n sets by GEN_START, 0 by GEN_STOP (R159). -/
def Dev.setDemand (d : Dev) (n : Nat) (start : Bool) : Dev :=
  let d := if start then forEach (List.finRange 6) (fun g d => d.returnToBus g) d else d
  Dev.meetDemand { d with par := { d.par with demand := n } }

/-- CHG hands PAR a LOSS cause (R173). -/
def Dev.lossCause (d : Dev) : Dev :=
  forEach (List.finRange 6) (fun g d => if (d.gen g).state = .unloading then d.moveGen g .unloadHeld id else d) d

/-! ## The dead-bus grant (R161, R162) -/

/-- A CLOSE of a set's breaker has been accepted: CLOSING, and CAP is triggered (R162, R166). -/
def Dev.genClosing (d : Dev) (g : Fin 6) (id : Count16) : Dev :=
  (d.moveGen g .closing (fun r => { r with cmdId := some id })).trigger .gen g.val

/-- A set is given the grant, and its CLOSE is asked for (R162). The generator bus is DEAD as last reported, by R161. -/
def Dev.giveGrant (d : Dev) (g : Fin 6) : Dev :=
  match d.genBreaker g with
  | none => d
  | some b =>
    let d := { d with par := { d.par with grant := some g } }
    match d.request { breaker := b, action := .closeIt, requester := .block .par } with
    | (.ok id, d') => d'.genClosing g id
    | (.error .noSync, d') => d'.toSyncWait g
    | (.error .blocked, d') => d'.releaseGrant
    | (.error _, d') => d'.failGen g .close

/-- PAR judges the grant (R161). -/
def Dev.judgeGrant (d : Dev) : Dev :=
  if decide (d.par.grant = none) && decide (d.genBusState = .dead) && !d.genBus.any d.blocked then
    match d.gensByRank.find? (fun g => decide ((d.gen g).state = .deadBusWait)) with
    | some g => d.giveGrant g
    | none => d
  else d

/-! ## The synchroniser (R164 to R168) -/

/-- The side buses of the breaker of a request carry no transfer block (R164). -/
def Dev.servable (d : Dev) (r : SyncReq) : Bool := !(d.reqBreaker r).any d.sideBlocked

/-- A request enters service (R164). No slip and no voltage difference has been formed for it yet. -/
def Dev.serve (d : Dev) (r : SyncReq) : Dev :=
  let d := { d with par := { d.par with sync :=
    { d.par.sync with served := some r, accepted := false, met := 0, slipOk := false, voltOk := false } } }
  match r with
  | .bus _ => { d with par := { d.par with busWaiting := none } }
  | .gen g => d.moveGen g .syncing id

/-- A free synchroniser is examined (R164). -/
def Dev.examineSync (d : Dev) : Dev :=
  if d.par.sync.served = none then
    match d.syncQueue.find? d.servable with
    | some r => d.serve r
    | none => d
  else d

/-- CHG places its bus request (R137, R164). -/
def Dev.placeBusRequest (d : Dev) (r : BusRequest) : Dev :=
  Dev.push .examineSync { d with par := { d.par with busWaiting := some r } }

/-- CHG withdraws its bus request, waiting or served (R164, R168). -/
def Dev.withdrawBusRequest (d : Dev) : Dev :=
  let d := { d with par := { d.par with busWaiting := none } }
  if d.servesBus then d.endService else d

/-- CHG tells the synchroniser that SWM has accepted the CLOSE carrying a result (R166). -/
def Dev.busAccepted (d : Dev) : Dev :=
  if d.servesBus then { d with par := { d.par with sync := { d.par.sync with accepted := true } } } else d

/-- CHG tells the synchroniser that the record using its result has ended (R168). -/
def Dev.busEnded (d : Dev) : Dev := if d.servesBus then d.endService else d

/-- The phase A voltage of a group: phasor, RMS and quality. -/
def Dev.phaseAVoltage (d : Dev) (g : Option (Fin 24)) : Phasor × Nat × Quality :=
  match g.bind (fun k => (d.groupCfg k).voltages) with
  | some (a, _, _) => ((d.quantity a).phasor, (d.quantity a).rms, (d.quantity a).quality)
  | none => ({}, 0, .invalid)

/-- The frequency deviation of a group, and whether it is valid. -/
def Dev.deviation (d : Dev) (g : Option (Fin 24)) : Int × Bool :=
  match g with
  | some k => ((d.group k).df, (d.group k).dfQ.valid)
  | none => (0, false)

/-- The synchroniser's values and count after the tests of an instant (R165). -/
def Dev.syncValues (d : Dev) (r : SyncReq) : Sync :=
  let y := d.par.sync
  let ref := d.phaseAVoltage (d.reqRefGroup r)
  let inc := d.phaseAVoltage (d.reqInGroup r)
  let fr := d.deviation (d.reqRefGroup r)
  let fi := d.deviation (d.reqInGroup r)
  let slip := fi.1 - fr.1
  let slipOk := fr.2 && fi.2
  let dv : Int := (ref.2.1 : Int) - inc.2.1
  let voltOk := ref.2.2.valid && inc.2.2.valid
  let v := vectorWindow ref.1 inc.1 ref.2.2 inc.2.2 d.tab.par.angle
  let met := slipOk && decide (0 ≤ slip ∧ slip ≤ d.tab.par.slipWindow) && decide (v = .inside)
    && voltOk && decide (dv.natAbs ≤ d.tab.par.voltWindow)
  { y with met := if met then y.met + 1 else 0, slip := slip, slipOk := slipOk, dv := dv, voltOk := voltOk, vector := v
           lastMet := if met then d.sau.inst else y.lastMet }

/-- A result for a generator request goes to SWM (R166). -/
def Dev.genResult (d : Dev) (g : Fin 6) (first : Count32) : Dev :=
  match d.genBreaker g with
  | none => d
  | some b =>
    match d.request { breaker := b, action := .closeIt, requester := .block .par
                      sync := some { breaker := b, first := first, second := d.sau.inst } } with
    | (.ok id, d') =>
      Dev.genClosing { d' with par := { d'.par with sync := { d'.par.sync with accepted := true } } } g id
    | (.error .noSync, d') => d'
    | (.error .blocked, d') => (d'.moveGen g .syncWait id).endService
    | (.error _, d') => d'.failGen g .close

/-- The served request is tested at an instant, and a result given (R165, R166). -/
def Dev.syncInstant (d : Dev) : Dev :=
  match d.par.sync.served with
  | none => d
  | some r =>
    let first := d.par.sync.lastMet
    let d := { d with par := { d.par with sync := d.syncValues r } }
    if 2 ≤ d.par.sync.met ∧ d.par.sync.accepted = false then
      match r with
      | .gen g => d.genResult g first
      | .bus q => d.push (.syncResult q.breaker first d.sau.inst)
    else d

/-- MEAS reports an invalidation (R165). -/
def Dev.syncInvalidate (d : Dev) (qs : List (Fin 96)) : Dev :=
  match d.par.sync.served with
  | none => d
  | some r =>
    let gs := (d.reqRefGroup r).toList ++ (d.reqInGroup r).toList
    if gs.any (fun k => (d.groupCfg k).quantities.any qs.contains) then
      { d with par := { d.par with sync := { d.par.sync with met := 0 } } }
    else d

/-- PAR at a phasor instant: starting sets, the grant, the served request, then a free synchroniser. -/
def Dev.parInstant (d : Dev) : Dev :=
  if d.par.settled then
    (forEach (List.finRange 6) (fun g d => d.judgeStarting g) d).judgeGrant.syncInstant.examineSync
  else d

/-! ## Reports from SWM -/

/-- The generator bus has been reported in a new state: one set is judged (R158). -/
def Dev.judgeBusReport (d : Dev) (g : Fin 6) : Dev :=
  match (d.gen g).state, d.genBusState with
  | .available, _ => d.routeGen g
  | .deadBusWait, .live => if d.par.grant = some g then d else d.toSyncWait g
  | .syncWait, .dead => d.toDeadBusWait g
  | .syncing, .dead => d.toDeadBusWait g
  | _, _ => d

/-- SWM reports a bus to PAR: the sets are judged at a report of the generator bus, the grant at each bus report (R158, R161). -/
def Dev.parBus (d : Dev) (y : Fin 6) : Dev :=
  if d.par.settled then
    let d' := if d.genBus = some y then forEach (List.finRange 6) (fun g d => d.judgeBusReport g) d else d
    d'.judgeGrant
  else d

/-- SWM reports the effective position of a breaker to PAR (R169). -/
def Dev.parPosition (d : Dev) (b : Fin 24) : Dev :=
  match d.genOfBreaker b with
  | none => d
  | some g =>
    match (d.gen g).state with
    | .onBus | .unloading | .unloadHeld => if d.position b = .openPos then d.failGen g .opened else d
    | _ => d

/-- SWM reports a protection OPEN of a GEN breaker that ended DONE (R112, R169). -/
def Dev.parTrip (d : Dev) (b : Fin 24) : Dev :=
  match d.genOfBreaker b with
  | none => d
  | some g =>
    match (d.gen g).state with
    | .stopped | .stopping | .failed => d
    | _ => d.failGen g .tripped

/-- SWM reports the release of a claim to PAR (R157, R180). -/
def Dev.parClaimReleased (d : Dev) (b : Fin 24) : Dev :=
  match d.genOfBreaker b with
  | none => d
  | some g => if (d.gen g).wantClaim then d.claimGen g else d

/-- The end of the CLOSE record of a CLOSING set (R169). -/
def Dev.closeEnded (d : Dev) (g : Fin 6) (e : RecordEnd) : Dev :=
  match e with
  | .done => d.moveGen g .onBus (fun r => r.takeTargets (d.genPower g))
  | .superseded => d.failGen g .tripped
  | _ => d.failGen g .close

/-- The end of the OPEN record of an OPENING set (R175). -/
def Dev.openEnded (d : Dev) (g : Fin 6) (e : RecordEnd) : Dev :=
  match e with
  | .done => d.toCooldown g
  | .superseded => d.failGen g .tripped
  | _ => d.failGen g .openFailed

/-- The CLOSE record that was active as its set failed has ended (R178, step 3). A set that has been reset and started again
meanwhile keeps its claim. -/
def Dev.failedCloseEnded (d : Dev) (g : Fin 6) (b : Fin 24) (e : RecordEnd) : Dev :=
  let d := d.modGen g (fun r => { r with openOnDone := false })
  if e = .done then
    let d := d.openUnjudged g b
    if (d.gen g).state = .failed ∨ (d.gen g).state = .stopped then d.releaseClaim b .par else d
  else d

/-- SWM reports the end of a record of PAR's (R112). -/
def Dev.parRecordEnded (d : Dev) (b : Fin 24) (id : Count16) (a : Action) (e : RecordEnd) : Dev :=
  match d.genOfBreaker b with
  | none => d
  | some g =>
    let mine := decide ((d.gen g).cmdId = some id)
    let d := if mine then d.modGen g (fun r => { r with cmdId := none }) else d
    if decide (a = .closeIt) && (d.gen g).openOnDone then d.failedCloseEnded g b e
    else match (d.gen g).state, a with
      | .closing, .closeIt => if mine then d.closeEnded g e else d
      | .opening, .openIt => if mine then d.openEnded g e else d
      | _, _ => d

/-! ## GENSET frames and the controller age (R155, R157, R158, R169, R175) -/

/-- The reason for which an engine state fails a set in a state, if any. -/
def engineFails (s : GenState) (e : Engine) : Option GenReason :=
  match s, e with
  | .starting, .fault | .starting, .unknown => some .start
  | .available, .fault | .available, .stopped | .deadBusWait, .fault | .deadBusWait, .stopped
  | .syncWait, .fault | .syncWait, .stopped | .syncing, .fault | .syncing, .stopped
  | .closing, .fault | .closing, .stopped | .onBus, .fault | .onBus, .stopped
  | .unloading, .fault | .unloading, .stopped | .unloadHeld, .fault | .unloadHeld, .stopped
  | .opening, .fault | .cooldown, .fault | .stopping, .fault => some .engine
  | .available, .unknown | .deadBusWait, .unknown | .syncWait, .unknown | .syncing, .unknown | .closing, .unknown
  | .onBus, .unknown | .unloading, .unknown | .unloadHeld, .unknown | .opening, .unknown | .cooldown, .unknown =>
    some .controllerLost
  | _, _ => none

/-- A set's state is judged against its record's values, after a hand-over or the expiry of its age (R155). `manual` says that
auto/manual has become MANUAL, and `was` that a STOPPED set was selectable before (R160). When both MANUAL and the engine state
would fail the set, R155 and R169 leave the reason open (notes/assumptions/2.md). -/
def Dev.judgeGen (d : Dev) (g : Fin 6) (manual was : Bool) : Dev :=
  let r := d.gen g
  match decide (r.state.running) && manual, engineFails r.state r.engine with
  | true, some reason =>
    let t := d.drawTie
    t.2.failGen g (if t.1 then .manual else reason)
  | true, none => d.failGen g .manual
  | false, some reason => d.failGen g reason
  | false, none =>
    match r.state with
    | .starting => d.judgeStarting g
    | .stopping => d.judgeStopping g
    | .stopped => if d.selectable g && !was then d.push .meetDemand else d
    | _ => d

/-- PAR takes a GENSET frame for a set (R155). -/
def Dev.takeGenset (d : Dev) (g : Fin 6) (e : Engine) (ready manual : Bool) : Dev :=
  let r := d.gen g
  let was := d.selectable g
  let d := d.modGen g (fun r => { r with engine := e, ready := ready, manual := manual, ageFrom := d.now, aged := false })
  if decide (r.engine = e ∧ r.ready = ready ∧ r.manual = manual) || !d.par.settled then d
  else d.judgeGen g (manual && !r.manual) was

/-- The controller age of a set reaches 2000 ms (R155). -/
def Dev.expireControllerAge (d : Dev) (g : Fin 6) : Dev :=
  let r := d.gen g
  if !r.aged && reached (after r.ageFrom Config.controllerAgeMs) d.now then
    let d := d.modGen g (fun r => { r with engine := .unknown, ready := false, aged := true })
    if d.par.settled then d.judgeGen g false false else d
  else d

/-! ## Timers (R157, R168, R175) -/

/-- The start timer of a set expires (R157). -/
def Dev.expireStart (d : Dev) (g : Fin 6) : Dev :=
  if decide ((d.gen g).state = .starting) && reached? (d.gen g).timer d.now then d.failGen g .start else d

/-- The sync timer of a set expires (R168). -/
def Dev.expireSync (d : Dev) (g : Fin 6) : Dev :=
  if (d.gen g).state.inSync && reached? (d.gen g).timer d.now then d.failGen g .sync else d

/-- The cooldown timer of a set expires (R175). -/
def Dev.expireCooldown (d : Dev) (g : Fin 6) : Dev :=
  if decide ((d.gen g).state = .cooldown) && reached? (d.gen g).timer d.now then d.toStopping g else d

/-! ## The setpoint period (R167, R170 to R174, R176) -/

/-- The synchroniser's corrections of one set (R167). -/
def Dev.correctSet (d : Dev) (vn : Nat) (g : Fin 6) : Dev :=
  let y := d.par.sync
  let c := d.tab.par
  let d := if y.slipOk then d.modGen g (fun r => r.addSpeed (truncDiv (((c.targetSlip : Int) - y.slip) * c.gs) 100)) else d
  if y.voltOk then d.modGen g (fun r => r.addVolt (truncDiv (truncDiv (y.dv * 10000) vn * c.gv) 100)) else d

/-- The synchroniser's corrections (R167). -/
def Dev.syncCorrections (d : Dev) : Dev :=
  match d.par.sync.served with
  | some r =>
    if d.par.sync.accepted then d
    else
      let vn := match d.reqInGroup r with
        | some k => (d.groupCfg k).nominal
        | none => 0
      forEach (d.reqAdjusts r) (fun g d => d.correctSet vn g) d
  | none => d

/-- A bus request with adjusted sets is in service (R167, R170). -/
def Dev.busAdjusting (d : Dev) : Bool :=
  match d.par.sync.served with
  | some (.bus r) => r.adjust
  | _ => false

/-- The frequency term of islanded sharing, 0 when it is omitted (R170). -/
def Dev.frequencyTerm (d : Dev) : Int :=
  let x := d.deviation (d.genBus.bind d.busGroup)
  if d.busAdjusting || !x.2 then 0 else truncDiv (x.1 * d.tab.par.gf) 100

/-- The load term of a set (R170, R172 to R174). -/
def Dev.loadTerm (d : Dev) (g : Fin 6) (target p : Int) : Int := truncDiv ((target - p) * d.tab.par.gl) (d.ratingInUse g)

/-- Islanded sharing of real and reactive load (R170, R171). -/
def Dev.shareIslanded (d : Dev) : Dev :=
  let sets := d.onBusSets.filter (fun g => (d.genPower g).2.2)
  let ratings : Int := ((sets.map d.ratingInUse).sum : Nat)
  let pTotal := (sets.map (fun g => (d.genPower g).1)).foldl (· + ·) 0
  let qTotal := (sets.map (fun g => (d.genPower g).2.1)).foldl (· + ·) 0
  let freq := d.frequencyTerm
  forEach d.onBusSets (fun g d' =>
    let x := d.genPower g
    if x.2.2 then
      let rating : Int := (d.ratingInUse g : Nat)
      let target := max 0 (truncDiv (pTotal * rating) ratings)
      let qTarget := truncDiv (qTotal * rating) ratings
      d'.modGen g (fun r => ({ r with load := target, reactive := qTarget }.addSpeed (d.loadTerm g target x.1 - freq)).addVolt
        (truncDiv ((qTarget - x.2.1) * d.tab.par.gq) rating))
    else d'.modGen g (fun r => r.addSpeed (-freq))) d

/-- Sharing while the generator bus is paralleled with a utility (R172). -/
def Dev.shareParalleled (d : Dev) : Dev :=
  forEach d.onBusSets (fun g d' =>
    let x := d.genPower g
    if x.2.2 then d'.modGen g (fun r => r.addSpeed (d.loadTerm g r.load x.1)) else d') d

/-- The islanded determination and sharing (R170 to R172). -/
def Dev.share (d : Dev) : Dev :=
  let islanded := d.genBusIslanded
  let d := { d with par := { d.par with islanded := islanded } }
  if islanded then d.shareIslanded else d.shareParalleled

/-- An UNLOADING set at a period (R173). -/
def Dev.unloadSet (d : Dev) (g : Fin 6) : Dev :=
  let x := d.genPower g
  if x.2.2 ∧ 20 * x.1 ≤ d.ratingInUse g then d.toOpening g
  else
    let d := d.modGen g (fun r => { r with load := max 0 (r.load - (d.genCfg g).ramp) })
    if x.2.2 then d.modGen g (fun r => r.addSpeed (d.loadTerm g r.load x.1)) else d

/-- An UNLOAD_HELD set at a period (R174). -/
def Dev.holdSet (d : Dev) (g : Fin 6) : Dev :=
  let x := d.genPower g
  let load := if x.2.2 then d.loadTerm g (d.gen g).load x.1 else 0
  let freq := if d.par.islanded then d.frequencyTerm else 0
  d.modGen g (fun r => r.addSpeed (load - freq))

/-- The UNLOADING and UNLOAD_HELD corrections and exits (R173, R174). -/
def Dev.unloadSets (d : Dev) : Dev :=
  forEach (List.finRange 6) (fun g d =>
    match (d.gen g).state with
    | .unloading => d.unloadSet g
    | .unloadHeld => d.holdSet g
    | _ => d) d

/-- The SETPOINT frames of a period (R176). -/
def Dev.sendSetpoints (d : Dev) : Dev :=
  forEach (List.finRange 6) (fun g d =>
    if (d.gen g).state.running then d.sendSetpoint g true (d.gen g).speed (d.gen g).volt
    else if (d.gen g).state = .stopping then d.sendSetpoint g false 0 0
    else d) d

/-- When the next setpoint period falls due (R176). -/
def Par.periodDue (p : Par) : Count32 := p.firstPeriod + 100 * p.periods

/-- A setpoint period falls due (R176). Sharing goes on while a bus request whose CLOSE is accepted holds the synchroniser
(notes/assumptions/44.md). -/
def Dev.setpointPeriod (d : Dev) : Dev :=
  if d.par.settled && reached d.par.periodDue d.now then
    let d := d.syncCorrections.share.unloadSets.sendSetpoints
    { d with par := { d.par with periods := d.par.periods + 1 } }
  else d

/-! ## The end of settling (R180) and GEN_RESET (R179) -/

/-- The first multiple of 100 ms of the clock after a time, 0 when the clock wraps first (R176). -/
def nextHundred (t : Count32) : Count32 := BitVec.ofNat 32 (if (t.toNat / 100 + 1) * 100 < 2 ^ 32 then (t.toNat / 100 + 1) * 100 else 0)

/-- A used set takes its state at the end of settling (R180). -/
def Dev.settleGen (d : Dev) (g : Fin 6) : Dev :=
  match d.genBreaker g with
  | none => d
  | some b =>
    if (d.genCfg g).used ∧ (d.gen g).engine = .running then
      if d.position b = .closed then
        (d.moveGen g .onBus (fun r => r.takeTargets (d.genPower g))).claimGen g
      else if d.position b = .openPos then (d.toCooldown g).claimGen g
      else d
    else d

/-- CHG tells PAR that settling has ended (R180). -/
def Dev.settlePar (d : Dev) : Dev :=
  let d := { d with par := { d.par with settled := true, firstPeriod := nextHundred d.now, periods := 0 } }
  let d := forEach (List.finRange 6) (fun g d => d.settleGen g) d
  Dev.meetDemand { d with par := { d.par with demand := d.onBusSets.length } }

/-- The operate target GEN_RESET: its result and the device after it (R179). -/
def Dev.genReset (d : Dev) (g : Fin 6) : Nat × Dev :=
  if !(d.genCfg g).used then (resInvalid, d)
  else if (d.gen g).state = .failed then
    if (d.gen g).engine = .running then (resNotPermitted, d) else (resOk, d.toStopped g)
  else (resOk, d)

/-- Every set is STOPPED or FAILED (R181). -/
def Dev.allSetsIdle (d : Dev) : Bool :=
  (List.finRange 6).all (fun g => decide ((d.gen g).state = .stopped ∨ (d.gen g).state = .failed))

end Sys2Proof.Machine
end

