-- ==== Sys2Proof/Machine/Changeover.lean ====
section
/-!
DEFINITION. Sys2Proof/Machine/Changeover.lean: the changeover sequencer (Chapter 6): source judgement and states, causes,
schemes and their steps, closed transition, operate targets and settling.
-/
namespace Sys2Proof.Machine

/-! ## The transfer record -/

/-- CHG's state changed. -/
def Dev.modChg (d : Dev) (f : Chg → Chg) : Dev := { d with chg := f d.chg }

/-- The transfer record changed. -/
def Dev.modTransfer (d : Dev) (f : Transfer → Transfer) : Dev :=
  d.modChg (fun c => { c with transfer := c.transfer.map f })

/-- The step of a transfer record. -/
def Transfer.step (t : Transfer) : StepEntry :=
  match toId 32 t.index with
  | some i => tget t.entry.steps i
  | none => StepEntry.endStep

/-- The transfer record of the running scheme (R130, R131). -/
def Dev.running (d : Dev) : Option Transfer := if d.chg.state = .running then d.chg.transfer else none

/-- The breaker that a step names, for OPEN, CLOSE_DEAD and CLOSE_SYNC. -/
def StepEntry.breaker (e : StepEntry) : Option (Fin 24) :=
  if e.kind = 1 ∨ e.kind = 2 ∨ e.kind = 3 then toId 24 e.object else none

/-! ## Scheme ends (R139 to R141) -/

/-- CHG asks SWM to release every breaker of its claim set (R139). -/
def Dev.releaseClaims (d : Dev) : Dev :=
  let bs := d.chg.claims
  forEach bs (fun b d => d.releaseClaim b .chg) (d.modChg (fun c => { c with claims := [] }))

/-- A TRANSFER_END notice of the transfer record (R139). -/
def Dev.noticeEnd (d : Dev) : Dev :=
  match d.chg.transfer with
  | some t => d.transferEndNotice t
  | none => d

/-- The scheme of the transfer record, for an error's subject. -/
def Dev.schemeId (d : Dev) : Nat :=
  match d.chg.transfer with
  | some t => t.scheme.val
  | none => noSubject

/-- The running scheme ends FAILED (R140). -/
def Dev.failScheme (d : Dev) (reason : FailReason) (refusal : Refused) : Dev :=
  let d := d.modTransfer (fun t => { t with result := .failed, reason := reason, refusal := refusal })
  let d := d.withdrawBusRequest.releaseClaims
  let d := d.modChg (fun c => { c with pending := [] })
  let d := (d.recordError .schemeFailed d.schemeId).noticeEnd
  d.modChg (fun c => { c with state := .failed })

/-- The running scheme is aborted by preemption (R141). -/
def Dev.abortScheme (d : Dev) : Dev :=
  let d := d.modTransfer (fun t => { t with result := .aborted, deadline := none, waitEnd := none })
  d.withdrawBusRequest.releaseClaims.noticeEnd

/-! ## Causes (R126, R127, R134) -/

/-- A cause's entry in the cause table: the scheme it names, if any (R127). -/
def Dev.causeScheme (d : Dev) (c : Cause) : Option (Fin 8) := (toId 5 c.code).bind (fun k => toId 8 (tget d.tab.causes k))

/-- A cause entry is written by a follow-on (R127, R139). -/
def Dev.writeCause (d : Dev) (c : Fin 5) (v : Nat) : Dev :=
  Dev.storeJob { d with tab := { d.tab with causes := tset d.tab.causes c v } } (.cause c v)

/-- A utility is FAILED or RETURNING (R126, R134). -/
def Dev.sourceDown (d : Dev) (u : Utility) : Bool :=
  decide ((d.chg.source u).state = .failed ∨ (d.chg.source u).state = .returning)

/-- A pending cause's condition still holds (R134). -/
def Dev.causeHolds (d : Dev) : Cause → Bool
  | .lossA => d.sourceDown .a
  | .lossB => d.sourceDown .b
  | .lossBoth => d.sourceDown .a && d.sourceDown .b
  | .returnA => decide (d.chg.sourceA.state = .healthy)
  | .returnB => decide (d.chg.sourceB.state = .healthy)

/-- The order in which pending causes are taken (R134). -/
def pendingOrder : List Cause := [.lossBoth, .lossA, .lossB, .returnA, .returnB]

/-- Takes the pending causes of a list in order until one names a scheme: the cause and its scheme, and the pending set left. -/
def Dev.pickPending (d : Dev) : List Cause → List Cause → Option (Cause × Fin 8) × List Cause
  | [], left => (none, left)
  | c :: cs, left =>
    if left.contains c then
      match d.causeScheme c with
      | some s => (some (c, s), left.filter (fun x => decide (x ≠ c)))
      | none => d.pickPending cs (left.filter (fun x => decide (x ≠ c)))
    else d.pickPending cs left

/-! ## Steps (R135 to R139) -/

/-- What a step has come to: it waits, it has completed, it has failed, or it was an END and the scheme has ended DONE. -/
inductive Progress where
  | waiting
  | completed
  | failed (reason : FailReason) (refusal : Refused)
  | ended
  deriving DecidableEq, Repr

/-- A step that fails for a reason other than a refusal. -/
def Progress.fail (r : FailReason) : Progress := .failed r .none

/-- The step waits for its breaker (R135): the first deadline stands while it waits. -/
def Dev.waitBreaker (d : Dev) (busy : Bool) (deadline : Count32) : Dev :=
  d.modTransfer (fun t => { t with phase := .waitingBreaker, busy := busy, waitEnd := some (t.waitEnd.getD deadline) })

/-- SWM's answer to a step's request (R135, R136). -/
def Dev.takeAnswer (x : Answer × Dev) : Progress × Dev :=
  match x with
  | (.ok id, d) =>
    (.waiting, d.modTransfer (fun t => { t with phase := .requested, cmdId := some id, waitEnd := none, deadline := none }))
  | (.error .busy, d) => (.waiting, d.waitBreaker true (after d.now Config.stepWaitMs))
  | (.error .claimed, d) => (.waiting, d.waitBreaker false (after d.now Config.stepWaitMs))
  | (.error r, d) => (.failed .refused r, d)

/-- CHG asks SWM for an operation of a step's breaker (R136). -/
def Dev.askStep (d : Dev) (b : Fin 24) (a : Action) : Progress × Dev :=
  Dev.takeAnswer (d.request { breaker := b, action := a, requester := .block .chg })

/-- The source set of a side bus; an absent side has none (R142). -/
def Dev.sideSet (d : Dev) (side : Option (Fin 6)) : SourceSet :=
  match side with
  | some y => d.sourceSet y
  | none => {}

/-- A side bus is DEAD, or absent (R137). -/
def Dev.sideDead (d : Dev) (side : Option (Fin 6)) : Bool :=
  match side with
  | some y => decide ((d.bus y).state = .dead)
  | none => true

/-- The reference side of a CLOSE_SYNC is side 1 (R137). When both source sets contain GEN, the rule names no side
(notes/assumptions/2.md). -/
def Dev.referenceIsFirst (d : Dev) (s1 s2 : SourceSet) : Bool × Dev :=
  if s1.gen && s2.gen then d.drawTie
  else (!s1.gen, d)

/-- CHG places its bus request for a CLOSE_SYNC (R137, point 4). -/
def Dev.placeSync (d : Dev) (b : Fin 24) : Progress × Dev :=
  let s1 := d.sideSet (d.breakerCfg b).bus1
  let s2 := d.sideSet (d.breakerCfg b).bus2
  let g1 := (d.breakerCfg b).bus1.bind d.busGroup
  let g2 := (d.breakerCfg b).bus2.bind d.busGroup
  let x := d.referenceIsFirst s1 s2
  let req : BusRequest :=
    if x.1 then { breaker := b, refGroup := g1, inGroup := g2, adjust := s2.gen }
    else { breaker := b, refGroup := g2, inGroup := g1, adjust := s1.gen }
  let d := x.2.modTransfer (fun t => { t with phase := .synchronising, set1 := s1, set2 := s2, waitEnd := none })
  (.waiting, d.placeBusRequest req)

/-- A CLOSE_SYNC step whose breaker is claimed (R137, points 1 to 4). -/
def Dev.closeSync (d : Dev) (b : Fin 24) : Progress × Dev :=
  if d.position b = .closed then (.completed, d)
  else if d.sideDead (d.breakerCfg b).bus1 || d.sideDead (d.breakerCfg b).bus2 then
    Dev.askStep (d.modTransfer (fun t => { t with set1 := {}, set2 := {} })) b .closeIt
  else if d.chg.overlap.isSome then
    (.waiting, d.modTransfer (fun t => { t with phase := .waiting, waitEnd := none }))
  else d.placeSync b

/-- A step whose breaker is claimed goes on as its kind states (R136, R137). -/
def Dev.proceed (d : Dev) (kind : Nat) (b : Fin 24) : Progress × Dev :=
  match kind with
  | 1 => if d.position b = .openPos then (.completed, d) else d.askStep b .openIt
  | 2 => if d.position b = .closed then (.completed, d) else d.askStep b .closeIt
  | _ => d.closeSync b

/-- CHG asks SWM for a claim on a step's breaker (R135). -/
def Dev.claimStep (d : Dev) (t : Transfer) (b : Fin 24) : Progress × Dev :=
  match d.claim b .chg with
  | (.granted, d') =>
    let d' := d'.modChg (fun c => { c with claims := if c.claims.contains b then c.claims else c.claims ++ [b] })
    d'.proceed t.step.kind b
  | (_, d') => (.waiting, d'.waitBreaker false (after t.stepStart Config.stepWaitMs))

/-- The condition of an AWAIT step holds (R138). -/
def Dev.awaitHolds (d : Dev) (e : StepEntry) : Bool :=
  match e.cond with
  | 0 => (toId 24 e.object).any (fun b => decide (d.position b = .openPos))
  | 1 => (toId 24 e.object).any (fun b => decide (d.position b = .closed))
  | 2 => (toId 6 e.object).any (fun y => decide ((d.bus y).state = .dead))
  | 3 => (toId 6 e.object).any (fun y => decide ((d.bus y).state = .live))
  | _ => decide (e.object ≤ d.onBusSets.length)

/-- An END step acts: its follow-on is written, the scheme ends DONE (R139, points 1 to 4). -/
def Dev.endScheme (d : Dev) (e : StepEntry) : Dev :=
  let d := if e.cond = 1 then (toId 5 e.object).elim d (fun c => d.writeCause c e.link) else d
  (d.modTransfer (fun t => { t with result := .done })).noticeEnd.releaseClaims

/-- The transfer record as a step begins at a time (R131, R135, R137, R138). A GEN_START, GEN_STOP or END step shows CLAIMING
(notes/assumptions/43.md). -/
def Transfer.begin (t : Transfer) (now : Count32) : Transfer :=
  let e := t.step
  { t with stepStart := now, waitEnd := none, busy := false, cmdId := none, set1 := {}, set2 := {}
           phase := if e.kind = 4 then .waiting else if e.kind = 5 then .timing else .claiming
           deadline := if e.kind = 3 ∨ e.kind = 4 ∨ e.kind = 5 then some (after now e.time) else none }

/-- The current step begins (R135 to R139). -/
def Dev.beginStep (d : Dev) : Progress × Dev :=
  let d := d.modTransfer (fun t => t.begin d.now)
  match d.chg.transfer with
  | none => (.waiting, d)
  | some t =>
    let e := t.step
    match e.breaker with
    | some b => d.claimStep t b
    | none =>
      match e.kind with
      | 4 => if d.awaitHolds e then (.completed, d) else (.waiting, d)
      | 5 => (.waiting, d)
      | 6 => (.completed, d.setDemand e.object true)
      | 7 => (.completed, d.setDemand 0 false)
      | _ => (.ended, d.endScheme e)

/-- A scheme starts (R132): its transfer record, notice and trigger. -/
def Dev.startScheme (d : Dev) (s : Fin 8) (c : Option Cause) : Dev :=
  let t : Transfer := { scheme := s, cause := c, startMs := d.now, startInst := d.sau.inst, entry := tget d.tab.schemes s,
                        stepStart := d.now }
  let d := d.modChg (fun x => { x with state := .running, transfer := some t })
  (d.transferStartNotice s c).trigger .transfer s.val

/-- The sequencer goes on from a step's progress: to the next step, to the scheme's end, to a pending cause's scheme. -/
def Dev.advance : Nat → Progress × Dev → Dev
  | 0, x => x.2
  | _ + 1, (.waiting, d) => d
  | _ + 1, (.failed r f, d) => d.failScheme r f
  | n + 1, (.completed, d) => Dev.advance n (Dev.beginStep (d.modTransfer (fun t => { t with index := t.index + 1 })))
  | n + 1, (.ended, d) =>
    let x := d.pickPending pendingOrder (d.chg.pending.filter d.causeHolds)
    let d := d.modChg (fun c => { c with pending := x.2 })
    match x.1 with
    | some (c, s) => Dev.advance n (d.startScheme s (some c)).beginStep
    | none => d.modChg (fun c => { c with state := .idle })

/-- Six schemes of 32 steps at most can follow one another at a moment (R134). -/
def advanceLimit : Nat := 400

/-- The sequencer goes on. -/
def Dev.goOn (x : Progress × Dev) : Dev := Dev.advance advanceLimit x

/-- A scheme starts and runs as far as it goes now (R132). -/
def Dev.runScheme (d : Dev) (s : Fin 8) (c : Option Cause) : Dev := Dev.goOn (d.startScheme s c).beginStep

/-! ## Raising causes (R126, R132, R133) -/

/-- A LOSS cause (R126). -/
def Cause.isLoss : Cause → Bool
  | .lossA | .lossB | .lossBoth => true
  | _ => false

/-- The running scheme gives way to a LOSS cause (R133). -/
def preemptible : Option Cause → Bool
  | none => true
  | some c => !c.isLoss

/-- A cause joins the pending set (R133). -/
def Chg.addPending (c : Chg) (x : Cause) : Chg :=
  if c.pending.contains x then c else { c with pending := c.pending ++ [x] }

/-- A cause is taken by CHG in its state (R130, R132, R133). -/
def Dev.takeCause (d : Dev) (c : Cause) : Dev :=
  match d.chg.state with
  | .idle =>
    match d.causeScheme c with
    | some s => d.runScheme s (some c)
    | none => d
  | .running =>
    match d.chg.transfer, d.causeScheme c with
    | some t, some s =>
      if c.isLoss && preemptible t.cause then d.abortScheme.runScheme s (some c)
      else d.modChg (fun x => x.addPending c)
    | _, _ => d.modChg (fun x => x.addPending c)
  | _ => d

/-- A cause is raised: a LOSS cause is also handed to PAR (R126). -/
def Dev.raiseCause (d : Dev) (c : Cause) : Dev := (if c.isLoss then d.lossCause else d).takeCause c

/-- The LOSS cause that a utility raises (R126). -/
def Dev.lossOf (d : Dev) (u : Utility) : Cause :=
  if d.sourceDown u.other then .lossBoth
  else match u with
    | .a => .lossA
    | .b => .lossB

/-- The RETURN cause of a utility (R126). -/
def returnOf : Utility → Cause
  | .a => .returnA
  | .b => .returnB

/-! ## Sources (R122 to R125, R149) -/

/-- The stored record of a utility. -/
def Dev.sourceCfg (d : Dev) (u : Utility) : SourceEntry := tget d.tab.sources (utilityId u)

/-- A source's judgement (R122). -/
def Dev.judgement (d : Dev) (u : Utility) : Judgement :=
  if 0 < (d.chg.source u).marks then .unhealthy
  else match d.lineBus u with
    | none => .undetermined
    | some y =>
      match (d.bus y).state with
      | .dead => .unhealthy
      | .indeterminate => .undetermined
      | .live =>
        let f := d.deviation (d.busGroup y)
        if !f.2 then .undetermined
        else if (d.sourceCfg u).low ≤ f.1 ∧ f.1 ≤ (d.sourceCfg u).high then .healthy
        else .unhealthy

/-- A source changes its state, with a timer (R124). -/
def Dev.setSource (d : Dev) (u : Utility) (s : SourceState) (t : SourceTimer) : Dev :=
  d.modChg (fun c => c.modSource u (fun r => { r with state := s, timer := t, changeMs := d.now, changeInst := d.sau.inst }))

/-- A timer while the judgement is UNDETERMINED (R125). -/
def SourceTimer.suspend (t : SourceTimer) (now : Count32) : SourceTimer :=
  match t with
  | .running loss e => .suspended loss (timeLeft e now)
  | x => x

/-- A timer that is to run (R125). -/
def SourceTimer.resume (t : SourceTimer) (now : Count32) : SourceTimer :=
  match t with
  | .suspended loss r => .running loss (after now r)
  | x => x

/-- A source's timer is suspended or resumed. -/
def Dev.modTimer (d : Dev) (u : Utility) (f : SourceTimer → SourceTimer) : Dev :=
  d.modChg (fun c => c.modSource u (fun r => { r with timer := f r.timer }))

/-- A judgement is applied to a source's state (R124, R125, R149). -/
def Dev.applyJudgement (d : Dev) (u : Utility) (j : Judgement) : Dev :=
  let d := d.modChg (fun c => c.modSource u (fun r => { r with judgement := j }))
  match (d.chg.source u).state, j with
  | _, .undetermined => d.modTimer u (fun t => t.suspend d.now)
  | .unknown, .healthy => d.setSource u .healthy .none
  | .unknown, .unhealthy => let d := d.setSource u .failed .none; d.raiseCause (d.lossOf u)
  | .healthy, .unhealthy => d.setSource u .failing (.running true (after d.now (d.sourceCfg u).lossDelay))
  | .failing, .healthy => d.setSource u .healthy .none
  | .failed, .healthy => d.setSource u .returning (.running false (after d.now ((d.sourceCfg u).returnDelay * 1000)))
  | .returning, .unhealthy => d.setSource u .failed .none
  | .failing, .unhealthy | .returning, .healthy => d.modTimer u (fun t => t.resume d.now)
  | .healthy, .healthy | .failed, .unhealthy => d

/-- A source is judged afresh, once settling has ended (R123); until then no judgement is formed (notes/assumptions/50.md). -/
def Dev.judgeSource (d : Dev) (u : Utility) : Dev :=
  if d.chg.state = .settling then d else d.applyJudgement u (d.judgement u)

/-- A source's loss or return timer expires (R124). -/
def Dev.expireSourceTimer (d : Dev) (u : Utility) : Dev :=
  match (d.chg.source u).timer with
  | .running loss e =>
    if reached e d.now then
      if loss then let d := d.setSource u .failed .none; d.raiseCause (d.lossOf u)
      else (d.setSource u .healthy .none).raiseCause (returnOf u)
    else d
  | _ => d

/-- CHG at a phasor instant: utility A is judged before utility B (R123; notes/assumptions/49.md). -/
def Dev.chgInstant (d : Dev) : Dev := (d.judgeSource .a).judgeSource .b

/-- PROT marks a source, or withdraws a mark (R123). -/
def Dev.takeMark (d : Dev) (u : Utility) (on : Bool) : Dev :=
  (d.modChg (fun c => c.modSource u (fun r => { r with marks := if on then r.marks + 1 else r.marks - 1 }))).judgeSource u

/-- The line bus of a source is in INDETERMINATE, or has left it: the error and the noted flag (R125). -/
def Dev.noteIndeterminate (d : Dev) (u : Utility) : Dev :=
  match d.lineBus u with
  | none => d
  | some y =>
    if (d.bus y).state = .indeterminate then
      if d.chg.state = .settling ∨ (d.chg.source u).noted then d
      else (d.recordError .sourceIndeterminate (utilityId u).val).modChg
        (fun c => c.modSource u (fun r => { r with noted := true }))
    else d.modChg (fun c => c.modSource u (fun r => { r with noted := false }))

/-! ## Reports to the running step (R135, R137, R138) -/

/-- The step that waits for its breaker asks again (R135). -/
def Dev.retryStep (d : Dev) (b : Fin 24) : Dev :=
  match d.running with
  | some t =>
    if t.phase = .waitingBreaker ∧ t.step.breaker = some b then Dev.goOn (d.claimStep t b) else d
  | none => d

/-- An AWAIT step of some conditions and an object is tested again (R138). -/
def Dev.retestAwait (d : Dev) (conds : List Nat) (object : Option Nat) : Dev :=
  match d.running with
  | some t =>
    let e := t.step
    if decide (e.kind = 4) && decide (t.phase = .waiting) && conds.contains e.cond && object.all (fun o => decide (o = e.object))
        && d.awaitHolds e then Dev.goOn (.completed, d) else d
  | none => d

/-- A CLOSE_SYNC step that waited for the overlap record to become absent goes on (R137). -/
def Dev.overlapGone (d : Dev) : Dev :=
  match d.running with
  | some t =>
    if t.step.kind = 3 ∧ t.phase = .waiting then
      match t.step.breaker with
      | some b => Dev.goOn (d.closeSync b)
      | none => d
    else d
  | none => d

/-! ## Closed transition (R143 to R145) -/

/-- The overlap record is made when a CLOSE_SYNC's record ends DONE (R143). -/
def Dev.makeOverlap (d : Dev) (t : Transfer) (b : Fin 24) : Dev :=
  if t.set1.isEmpty || t.set2.isEmpty || t.set1.meets t.set2 then d
  else
    let o : Overlap := { breaker := b, set1 := t.set1, set2 := t.set2, scheme := t.scheme, limit := t.entry.limit
                         tripBreaker := t.entry.tripBreaker, start := d.now, expiry := after d.now t.entry.limit }
    d.modChg (fun c => { c with overlap := some o })

/-- The parallel of an overlap record still stands (R144). -/
def Dev.parallelStands (d : Dev) (o : Overlap) : Bool :=
  let s := d.sideSet (d.breakerCfg o.breaker).bus1
  s.meets o.set1 && s.meets o.set2

/-- The parallel is examined again (R144). -/
def Dev.reexamine (d : Dev) : Dev :=
  match d.chg.overlap with
  | some o => if d.parallelStands o then d else (d.modChg (fun c => { c with overlap := none })).overlapGone
  | none => d

/-- The overlap timer has expired: the protection-class OPEN (R145, point 1). -/
def Dev.overlapOpen (d : Dev) (o : Overlap) : Dev :=
  match toId 24 o.tripBreaker with
  | some b => d.protOpen b false (.block .chg)
  | none => d

/-- The overlap timer has expired: the error, the record and the scheme that made it (R145, points 2 to 4). -/
def Dev.overlapFail (d : Dev) (o : Overlap) : Dev :=
  let d := (d.recordError .overlapExceeded o.breaker.val).modChg (fun c => { c with overlap := none })
  match d.running with
  | some t => if t.scheme = o.scheme then d.failScheme .overlap .none else d.overlapGone
  | none => d

/-! ## Reports -/

/-- SWM reports an effective position to CHG (R135, R138, R144). -/
def Dev.chgPosition (d : Dev) (b : Fin 24) : Dev := (d.reexamine.retryStep b).retestAwait [0, 1] (some b.val)

/-- A bus report concerns a source (R123, R125). -/
def Dev.sourceBus (d : Dev) (u : Utility) (y : Fin 6) : Dev :=
  if d.lineBus u = some y then (d.noteIndeterminate u).judgeSource u else d

/-- SWM reports a bus to CHG: the sources are judged, A before B, and then an AWAIT step is tested (R123, R125, R138;
notes/assumptions/56.md). -/
def Dev.chgBus (d : Dev) (y : Fin 6) : Dev := ((d.sourceBus .a y).sourceBus .b y).retestAwait [2, 3] (some y.val)

/-- The record of the running step has ended (R136, R137). -/
def Dev.stepRecordEnded (d : Dev) (t : Transfer) (b : Fin 24) (e : RecordEnd) : Dev :=
  let d := if t.step.kind = 3 then d.busEnded else d
  match e with
  | .done => Dev.goOn (.completed, if t.step.kind = 3 then d.makeOverlap t b else d)
  | .superseded => Dev.goOn (Progress.fail .superseded, d)
  | _ => Dev.goOn (Progress.fail .recordFailed, d)

/-- SWM reports the end of a record of CHG's (R112). That of a step whose scheme was aborted meanwhile is not judged, and makes no
overlap record (R141; notes/assumptions/42.md). -/
def Dev.chgRecordEnded (d : Dev) (b : Fin 24) (id : Count16) (e : RecordEnd) : Dev :=
  match d.running with
  | some t =>
    if t.phase = .requested ∧ t.cmdId = some id ∧ t.step.breaker = some b then d.stepRecordEnded t b e
    else d.retryStep b
  | none => d

/-- SWM reports the end of a protection OPEN that CHG asked for or joined (R112). No rule judges it; a step that waits for the
breaker asks again (R135; notes/assumptions/34.md). -/
def Dev.chgProtEnded (d : Dev) (b : Fin 24) (_ : Count16) (_ : Action) (_ : RecordEnd) : Dev := d.retryStep b

/-- The synchroniser's result for CHG's bus request (R137). A BUSY answer makes the step wait for its breaker, its request
withdrawn (R135; notes/assumptions/31.md). -/
def Dev.takeSyncResult (d : Dev) (b : Fin 24) (first second : Count32) : Dev :=
  match d.running with
  | some t =>
    if t.phase = .synchronising ∧ t.step.breaker = some b then
      match d.request { breaker := b, action := .closeIt, requester := .block .chg,
                        sync := some { breaker := b, first := first, second := second } } with
      | (.error .noSync, d') => d'
      | (.ok id, d') => Dev.goOn (Dev.takeAnswer (.ok id, d'.busAccepted))
      | (.error r, d') => Dev.goOn (Dev.takeAnswer (.error r, d'.withdrawBusRequest))
    else d
  | none => d

/-! ## Step deadlines -/

/-- The deadline of a WAITING_BREAKER step (R135). -/
def Dev.expireStepWait (d : Dev) : Dev :=
  match d.running with
  | some t =>
    if decide (t.phase = .waitingBreaker) && reached? t.waitEnd d.now then
      Dev.goOn (Progress.fail (if t.busy then .breakerBusy else .claimConflict), d)
    else d
  | none => d

/-- The sync timeout of a CLOSE_SYNC step (R137). -/
def Dev.expireStepSync (d : Dev) : Dev :=
  match d.running with
  | some t =>
    if decide (t.step.kind = 3) && reached? t.deadline d.now then Dev.goOn (Progress.fail .syncTimeout, d) else d
  | none => d

/-- The deadline of an AWAIT step (R138). -/
def Dev.expireAwait (d : Dev) : Dev :=
  match d.running with
  | some t =>
    if decide (t.step.kind = 4) && decide (t.phase = .waiting) && reached? t.deadline d.now then
      if t.step.link = 255 then Dev.goOn (Progress.fail .awaitTimeout, d)
      else Dev.goOn (Dev.beginStep (d.modTransfer (fun x => { x with index := t.step.link })))
    else d
  | none => d

/-- The deadline of a DELAY step (R138). -/
def Dev.expireDelay (d : Dev) : Dev :=
  match d.running with
  | some t =>
    if decide (t.step.kind = 5) && reached? t.deadline d.now then Dev.goOn (.completed, d) else d
  | none => d

/-! ## Operate targets and modes (R146, R147) -/

/-- The state CHG takes when nothing runs: INHIBITED by the flag or by SERVICE mode, else IDLE. -/
def Dev.restState (d : Dev) : ChgState := if d.chg.inhibit ∨ d.mode = .service then .inhibited else .idle

/-- RUN_SCHEME (R146): its result and the device after it. -/
def Dev.opRunScheme (d : Dev) (s : Fin 8) : Nat × Dev :=
  match d.chg.state with
  | .idle => (resOk, d.runScheme s none)
  | .running => (resBusy, d)
  | _ => (resNotPermitted, d)

/-- CHG_RESET (R146). -/
def Dev.opChgReset (d : Dev) : Nat × Dev :=
  (resOk, if d.chg.state = .failed then d.modChg (fun c => { c with state := d.restState }) else d)

/-- CHG_INHIBIT (R147). -/
def Dev.opInhibit (d : Dev) : Nat × Dev :=
  match d.chg.state with
  | .running => (resBusy, d)
  | .idle => (resOk, d.modChg (fun c => { c with inhibit := true, state := .inhibited }))
  | _ => (resOk, d.modChg (fun c => { c with inhibit := true }))

/-- CHG_RELEASE (R147). -/
def Dev.opRelease (d : Dev) : Nat × Dev :=
  let d := d.modChg (fun c => { c with inhibit := false })
  (resOk, if d.chg.state = .inhibited then d.modChg (fun c => { c with state := d.restState }) else d)

/-- The mode enters SERVICE (R147). -/
def Dev.chgEnterService (d : Dev) : Dev :=
  if d.chg.state = .idle then d.modChg (fun c => { c with state := .inhibited }) else d

/-- The mode has left SERVICE (R147). -/
def Dev.chgLeaveService (d : Dev) : Dev :=
  if d.chg.state = .inhibited then d.modChg (fun c => { c with state := d.restState }) else d

/-- A scheme is running or the overlap record is present (R147). -/
def Dev.chgBusy (d : Dev) : Bool := decide (d.chg.state = .running) || d.chg.overlap.isSome

/-! ## Settling (R148) and a written source record (R120) -/

/-- Every enabled stream is LOCKED or LOST and every used breaker has a reported position (R148). -/
def Dev.settled (d : Dev) : Bool :=
  (List.finRange 24).all (fun i => decide ((tget d.tab.streams i).enable = 0)
    || decide ((tget d.sau.streams i).state = .locked ∨ (tget d.sau.streams i).state = .lost))
  && (List.finRange 24).all (fun b => !(d.breakerCfg b).used || decide ((d.breaker b).reported ≠ .unknown))

/-- A source is set without its delays at the end of settling (R148). -/
def Dev.settleSource (d : Dev) (u : Utility) : Dev :=
  let j := d.judgement u
  let d := d.modChg (fun c => c.modSource u (fun r => { r with judgement := j }))
  match j with
  | .healthy => d.setSource u .healthy .none
  | .unhealthy => d.setSource u .failed .none
  | .undetermined => d

/-- The causes of the end of settling (R148, point 4). -/
def Dev.settleCauses (d : Dev) : Dev :=
  match d.chg.sourceA.state, d.chg.sourceB.state with
  | .failed, .failed => d.raiseCause .lossBoth
  | .failed, _ => d.raiseCause .lossA
  | _, .failed => d.raiseCause .lossB
  | _, _ => d

/-- Settling ends, if its condition holds or 5000 ms have passed (R148). SOURCE_INDETERMINATE (R125) is recorded once CHG has left
SETTLING and before the sources are judged (notes/assumptions/57.md). -/
def Dev.endSettling (d : Dev) : Dev :=
  if decide (d.chg.state = .settling) && (d.settled || reached (after 0 Config.settlingMs) d.now) then
    let d := d.settlePar
    let d := d.modChg (fun c => { c with state := d.restState })
    let d := (d.noteIndeterminate .a).noteIndeterminate .b
    ((d.settleSource .a).settleSource .b).settleCauses
  else d

/-- A source record has been written: a changed line-side bus returns the source to UNKNOWN (R120). -/
def Dev.sourceWritten (d : Dev) (u : Utility) (oldBus : Nat) : Dev :=
  if (d.sourceCfg u).bus = oldBus then d
  else
    let d := if (d.chg.source u).state = .unknown then d.modTimer u (fun _ => .none) else d.setSource u .unknown .none
    d.modChg (fun c => c.modSource u (fun r => { r with noted := false }))

end Sys2Proof.Machine
end

