-- ==== Sys2Proof/Machine/Reports.lean ====
section
/-!
DEFINITION. Sys2Proof/Machine/Reports.lean: the taking of the reports between blocks and of the work a block owes itself. Each
report is taken whole, in the order in which it was made; a report to both CHG and PAR is taken by CHG first
(notes/assumptions/6.md).
-/
namespace Sys2Proof.Machine

/-- A report is taken by the blocks it is for. -/
def Dev.deliver (d : Dev) : Report → Dev
  | .position b => (d.chgPosition b).parPosition b
  | .bus y _ => (d.chgBus y).parBus y
  | .claimReleased b => (d.retryStep b).parClaimReleased b
  | .recordEnded .chg b id _ e => d.chgRecordEnded b id e
  | .recordEnded .par b id a e => d.parRecordEnded b id a e
  | .recordEnded .mgt _ _ _ _ => d
  | .protOpenEnded b id a e => d.chgProtEnded b id a e
  | .genTripDone b => d.parTrip b
  | .releaseDue b => d.releaseDue b
  | .mark u on => d.takeMark u on
  | .onBusChanged => d.retestAwait [4] none
  | .syncResult b first second => d.takeSyncResult b first second
  | .meetDemand => d.meetDemand
  | .judgeGrant => d.judgeGrant
  | .examineSync => d.examineSync

/-- Takes reports, first in first out, until none is left. -/
def Dev.drain : Nat → Dev → Dev
  | 0, d => d
  | n + 1, d =>
    match d.work with
    | [] => d
    | r :: rs => Dev.drain n (Dev.deliver { d with work := rs } r)

/-- More reports than the blocks can make of one another at a moment. -/
def drainLimit : Nat := 2000

/-- Every report is taken. -/
def Dev.flush (d : Dev) : Dev := Dev.drain drainLimit d

/-- The overlap timer expires (R145). The end of a record that the protection OPEN supersedes reaches CHG before the scheme
is failed. -/
def Dev.expireOverlap (d : Dev) : Dev :=
  match d.chg.overlap with
  | some o => if reached o.expiry d.now then (d.overlapOpen o).flush.overlapFail o else d
  | none => d

end Sys2Proof.Machine
end

