-- ==== Sys2Proof/Machine/Protection.lean ====
section
/-!
DEFINITION. Sys2Proof/Machine/Protection.lean: the protection elements (Chapter 4): blocking, pickup and dropout, timing,
differential zones, the maintenance overlay, forcing, and what an operated element does.
-/
namespace Sys2Proof.Machine

/-! ## Becoming operated and un-operating (R84, R87) -/

/-- The utility that an element's source-monitor target names (R63). -/
def ElementEntry.target (e : ElementEntry) : Option Utility :=
  if e.monitor = 1 then some .a else if e.monitor = 2 then some .b else none

/-- An element's mark on its source is set or withdrawn (R86). -/
def Dev.markSource (d : Dev) (e : Fin 32) (on : Bool) : Dev :=
  match (d.elementCfg e).target with
  | some u => d.push (.mark u on)
  | none => d

/-- The requests to SWM of an element that becomes operated (R84, steps 2 to 4). -/
def Dev.operateRequests (d : Dev) (e : Fin 32) : Dev :=
  let c := d.elementCfg e
  let d := forEach c.tripIds (fun b d => d.protOpen b (decide (c.bf = 1)) (.element e)) d
  let d := if c.lockout = 1 then forEach c.tripIds (fun b d => d.writeLockout b true) d else d
  if c.block = 1 then forEach (d.blockBuses e) (fun y d => d.writeBlock y true) d else d

/-- An element becomes operated (R84). -/
def Dev.operateElement (d : Dev) (e : Fin 32) : Dev :=
  let c := d.elementCfg e
  let d := d.modElement e (fun r => { r with operated := true, opCount := sat16 r.opCount })
  let d := d.operateRequests e
  let d := if c.capture = 1 then d.trigger .element e.val else d
  let r := d.element e
  (d.tripNotice e r.phase c.kind r.opCount).markSource e true

/-- An operated element un-operates (R87). -/
def Dev.unoperate (d : Dev) (e : Fin 32) : Dev :=
  if (d.element e).operated then (d.modElement e (fun r => { r with operated := false })).markSource e false else d

/-- The reset element state (R65); the forced state, the operate count and the last instant are not part of it, nor is the
inclusion of the last evaluation, which R68 goes on taking. -/
def ElementRec.resetState (r : ElementRec) : ElementRec :=
  { r with picked := false, phase := .none, integrator := 0, counter := 0, operated := false, blocked := false }

/-- An element takes the reset element state and its forcing is released (R64, R83, R89). -/
def Dev.resetElement (d : Dev) (e : Fin 32) : Dev :=
  (d.unoperate e).modElement e (fun r => { r.resetState with forced := .none })

/-! ## Inputs and blocking (R67, R79) -/

/-- An element of kind DIFF. -/
def ElementEntry.isDiff (e : ElementEntry) : Bool := decide (e.kind = 3)

/-- The group an element measures; DIFF has none. -/
def ElementEntry.group (e : ElementEntry) : Option (Fin 24) := if e.isDiff then none else toId 24 e.source

/-- The zone of a DIFF element. -/
def Dev.elementZone (d : Dev) (e : ElementEntry) : ZoneEntry :=
  match toId 4 e.source with
  | some z => tget d.tab.zones z
  | none => {}

/-- The used member slots of a zone. -/
def ZoneEntry.slots (z : ZoneEntry) : List (Fin 10) := idsWhere 10 (fun i => decide (i.val < z.count))

/-- The phase currents of a zone member. -/
def Dev.memberCurrents (d : Dev) (m : ZoneMember) : Option (Fin 96 × Fin 96 × Fin 96) :=
  (toId 24 m.group).bind (fun g => (d.groupCfg g).currents)

/-- What a member's switched flag and its breaker say: included, excluded, or none when the zone is blocked (R79). -/
def Dev.memberIncluded (d : Dev) (m : ZoneMember) : Option Bool :=
  if m.switched = 0 then some true
  else match toId 24 m.breaker with
    | none => none
    | some b =>
      match d.position b with
      | .closed | .travelling => some true
      | .openPos => some false
      | .unknown | .defect => none

/-- The included members of a zone. -/
def Dev.includedSlots (d : Dev) (z : ZoneEntry) : List (Fin 10) :=
  z.slots.filter (fun i => decide (d.memberIncluded (tget z.members i) = some true))

/-- The quantities of a role are all valid. -/
def Dev.allValid (d : Dev) (qs : List (Fin 96)) : Bool := qs.all (fun q => (d.quantity q).quality.valid)

/-- A member's group has phase currents, and they are valid. -/
def Dev.memberValid (d : Dev) (m : ZoneMember) : Bool :=
  match d.memberCurrents m with
  | some (a, b, c) => d.allValid [a, b, c]
  | none => false

/-- A member of a zone (R78). A polarity or switched flag outside 0..1 fails (notes/assumptions/37.md). -/
def Tables.memberOk (t : Tables) (m : ZoneMember) : Bool :=
  (decide (m.breaker = 255) || within 0 23 m.breaker) && within 0 1 m.polarity && within 0 1 m.switched
    && !(decide (m.switched = 1) && decide (m.breaker = 255))
    && (toId 24 m.group).any (fun g => (tget t.groups g).currents.isSome)

/-- A zone entry passes the checks of R78. -/
def Tables.zoneEntryOk (t : Tables) (e : ZoneEntry) : Bool :=
  let ms := e.members.toList.take e.count
  within 0 10 e.count && ms.all t.memberOk && distinct (ms.map ZoneMember.group)

/-- A zone is blocked (R79), and so is one that fails the checks of R78 as the tables stand at the instant (R90;
notes/assumptions/60.md). -/
def Dev.zoneBlocked (d : Dev) (z : ZoneEntry) : Bool :=
  !d.tab.zoneEntryOk z || decide (z.count = 0)
    || z.slots.any (fun i => decide (d.memberIncluded (tget z.members i) = none))
    || z.slots.any (fun i => decide (d.memberCurrents (tget z.members i) = none))
    || (d.includedSlots z).any (fun i => !d.memberValid (tget z.members i))

/-- The quantities of a present role are all valid; an absent role is not. -/
def Dev.roleValid (d : Dev) (r : Option (Fin 96 × Fin 96 × Fin 96)) : Bool :=
  match r with
  | some (a, b, c) => d.allValid [a, b, c]
  | none => false

/-- An element's required inputs are present and valid (R67). -/
def Dev.inputsValid (d : Dev) (e : ElementEntry) : Bool :=
  if e.isDiff then !d.zoneBlocked (d.elementZone e)
  else match e.group with
    | none => false
    | some g =>
      match e.kind with
      | 0 | 1 => d.roleValid (d.groupCfg g).currents
      | 2 => (d.group g).residQ.valid
      | 4 | 5 => d.roleValid (d.groupCfg g).voltages
      | 6 | 7 => (d.group g).dfQ.valid
      | 8 => (d.group g).powerQ.valid
      | _ => false

/-- An element is blocked (R67). -/
def Dev.blockElement (d : Dev) (e : Fin 32) : Dev :=
  (d.unoperate e).modElement e (fun r => { r with blocked := true, picked := false, phase := .none })

/-- The quantities whose invalidation blocks an element at once (R68). -/
def Dev.requiredQuantities (d : Dev) (c : ElementEntry) (r : ElementRec) : List (Fin 96) :=
  if c.isDiff then
    r.included.flatMap (fun i => roleList (d.memberCurrents (tget (d.elementZone c).members i)))
  else match c.group with
    | none => []
    | some g =>
      match c.kind with
      | 0 | 1 => roleList (d.groupCfg g).currents
      | 2 => (d.groupCfg g).residualIds
      | 4 | 5 => roleList (d.groupCfg g).voltages
      | 8 => roleList (d.groupCfg g).currents ++ roleList (d.groupCfg g).voltages
      | _ => []

/-! ## Compared values and tests (R69 to R73, R80) -/

/-- What an element's compared value says at an instant: its pickup and dropout tests, its compare-select phase, and the M2
that OC_INV integrates. -/
structure Assessment where
  pick  : Bool
  drop  : Bool
  phase : FaultPhase := .none
  m2    : Nat := 0
  deriving DecidableEq, Repr

/-- The largest of three values with its phase, the earliest on equality (R69). -/
def largest (a b c : Nat) : Nat × FaultPhase :=
  if b ≤ a ∧ c ≤ a then (a, .a) else if c ≤ b then (b, .b) else (c, .c)

/-- The smallest of three values with its phase, the earliest on equality (R69). -/
def smallest (a b c : Nat) : Nat × FaultPhase :=
  if a ≤ b ∧ a ≤ c then (a, .a) else if b ≤ c then (b, .b) else (c, .c)

/-- The M2 values of a role. -/
def Dev.roleM2 (d : Dev) (r : Option (Fin 96 × Fin 96 × Fin 96)) : Nat × Nat × Nat :=
  match r with
  | some (a, b, c) => ((d.quantity a).m2, (d.quantity b).m2, (d.quantity c).m2)
  | none => (0, 0, 0)

/-- An element uses its maintenance pickup (R81). -/
def Dev.maintained (d : Dev) (c : ElementEntry) : Bool :=
  d.overlay && decide (c.kind = 1 ∨ c.kind = 2) && decide (c.maintPickup ≠ 0)

/-- The pickup in force of a current element (R70, R81). -/
def Dev.pickupInForce (d : Dev) (c : ElementEntry) : Nat := if d.maintained c then c.maintPickup else c.pickup.toNat

/-- The tests of the overcurrent kinds (R70). -/
def overTests (x : Nat × FaultPhase) (ip : Nat) : Assessment :=
  { pick := decide (2 * (ip * ip) ≤ x.1), drop := decide (400 * x.1 < 722 * (ip * ip)), phase := x.2, m2 := x.1 }

/-- The tests of UV (R71). -/
def underVoltageTests (x : Nat × FaultPhase) (vp : Nat) : Assessment :=
  { pick := decide (x.1 < 2 * (vp * vp)), drop := decide (882 * (vp * vp) < 400 * x.1), phase := x.2, m2 := x.1 }

/-- The tests of OV (R71). -/
def overVoltageTests (x : Nat × FaultPhase) (vp : Nat) : Assessment :=
  { pick := decide (2 * (vp * vp) < x.1), drop := decide (400 * x.1 < 722 * (vp * vp)), phase := x.2, m2 := x.1 }

/-- The differential and restraint currents of one phase over included members (R80). -/
def Dev.phaseDiff (d : Dev) (z : ZoneEntry) (slots : List (Fin 10)) (sel : Fin 96 × Fin 96 × Fin 96 → Fin 96) : Nat × Nat :=
  let ms := slots.map (fun i => tget z.members i)
  let qs := ms.filterMap (fun m => (d.memberCurrents m).map (fun r => (m.polarity, d.quantity (sel r))))
  let p := Phasor.sum (qs.map (fun x => if x.1 = 0 then x.2.phasor else x.2.phasor.neg))
  (rmsOf p.m2, (qs.map (fun x => x.2.rms)).sum)

/-- A phase passes (R80). -/
def diffPasses (x : Nat × Nat) (pickup slope : Nat) : Bool := decide (pickup ≤ x.1 ∧ slope * x.2 ≤ 100 * x.1)

/-- The tests of DIFF (R80). -/
def Dev.diffTests (d : Dev) (c : ElementEntry) : Assessment :=
  let z := d.elementZone c
  let slots := d.includedSlots z
  let a := d.phaseDiff z slots (fun r => r.1)
  let b := d.phaseDiff z slots (fun r => r.2.1)
  let e := d.phaseDiff z slots (fun r => r.2.2)
  let v := fun (x : Nat × Nat) => if diffPasses x c.pickup.toNat c.slope then x.1 else 0
  let pass := diffPasses a c.pickup.toNat c.slope || diffPasses b c.pickup.toNat c.slope
    || diffPasses e c.pickup.toNat c.slope
  { pick := pass, drop := !pass, phase := (largest (v a) (v b) (v e)).2 }

/-- The assessment of an element whose inputs are valid (R70 to R73, R80). -/
def Dev.assess (d : Dev) (c : ElementEntry) : Assessment :=
  if c.isDiff then d.diffTests c
  else match c.group with
    | none => { pick := false, drop := true }
    | some g =>
      let i := d.roleM2 (d.groupCfg g).currents
      let v := d.roleM2 (d.groupCfg g).voltages
      let f := (d.group g).df
      let p := (d.group g).p
      match c.kind with
      | 0 | 1 => overTests (largest i.1 i.2.1 i.2.2) (d.pickupInForce c)
      | 2 => overTests ((d.group g).residM2, .n) (d.pickupInForce c)
      | 4 => underVoltageTests ((if c.phaseMode = 1 then largest else smallest) v.1 v.2.1 v.2.2) c.pickup.toNat
      | 5 => overVoltageTests (largest v.1 v.2.1 v.2.2) c.pickup.toNat
      | 6 => { pick := decide (f ≤ c.pickup), drop := decide (c.pickup + 20 < f) }
      | 7 => { pick := decide (c.pickup ≤ f), drop := decide (f < c.pickup - 20) }
      | 8 => { pick := decide (p ≤ -c.pickup), drop := decide (-(truncDiv (c.pickup * 95) 100) < p) }
      | _ => { pick := false, drop := true }

/-! ## Timing (R75 to R77, R80) -/

/-- The entry of a curve table (R74). -/
def Tables.curveEntry (t : Tables) (curve index : Nat) : Nat :=
  match toId 8 curve, toId 48 index with
  | some k, some i => tget (tget t.curves k) i
  | _, _ => 0

/-- The effective increment of an OC_INV element (R75). -/
def Tables.increment (t : Tables) (c : ElementEntry) (m2 : Nat) : Nat :=
  min Config.integratorFull (t.curveEntry c.curve (inverseIndex m2 c.pickup.toNat) * 100 / c.dial)

/-- The integrator after an instant (R75, R76). -/
def Tables.integrate (t : Tables) (c : ElementEntry) (picked : Bool) (m2 integrator : Nat) : Nat :=
  if picked then min Config.integratorFull (integrator + t.increment c m2)
  else if c.resetMode = 1 then integrator - c.decay
  else 0

/-- The definite counter after an instant (R77). -/
def countInstant (was picked : Bool) (counter : Nat) : Nat :=
  match was, picked with
  | true, true => sat16 counter
  | true, false => 0
  | false, _ => counter

/-- The delay in force of a definite-time element (R77, R80, R81). -/
def Dev.delayInForce (d : Dev) (c : ElementEntry) : Nat :=
  if c.isDiff then 1 else if d.maintained c then 0 else c.delay

/-- An element's state after its tests and its timing; the operated flag is left to its becoming or ceasing (R66). -/
def Dev.timeElement (d : Dev) (c : ElementEntry) (r : ElementRec) (a : Assessment) : ElementRec :=
  let picked := if r.picked then !a.drop else a.pick
  { r with blocked := false, picked := picked, phase := if picked then a.phase else .none
           integrator := if c.kind = 0 then d.tab.integrate c picked a.m2 r.integrator else r.integrator
           counter := if c.kind = 0 then r.counter else countInstant r.picked picked r.counter }

/-- An element's timing is complete while it is picked up (R75, R77). -/
def Dev.timedOut (d : Dev) (c : ElementEntry) (r : ElementRec) : Bool :=
  r.picked && (if c.kind = 0 then decide (r.integrator = Config.integratorFull) else decide (d.delayInForce c ≤ r.counter))

/-- An unforced element is evaluated (R66). -/
def Dev.evaluateElement (d : Dev) (e : Fin 32) : Dev :=
  let c := d.elementCfg e
  if d.inputsValid c then
    let d := d.modElement e (fun r => d.timeElement c r (d.assess c))
    let r := d.element e
    if r.operated then (if r.picked then d else d.unoperate e)
    else if d.timedOut c r then d.operateElement e
    else d
  else d.blockElement e

/-- An enabled element at an instant (R66, R82). The inclusion of a forced DIFF element is brought up to date with its blocked flag
(notes/assumptions/46.md). -/
def Dev.elementInstant (d : Dev) (e : Fin 32) : Dev :=
  let c := d.elementCfg e
  if c.enable = 0 then d
  else
    let d := if (d.element e).forced = .none then d.evaluateElement e
             else d.modElement e (fun r => { r with blocked := !d.inputsValid c })
    d.modElement e (fun r => { r with lastAt := d.sau.inst
                                      included := if c.isDiff then d.includedSlots (d.elementZone c) else [] })

/-- PROT at a phasor instant (R66, R81): MAINT_IN is sampled, then the elements are evaluated, in id order
(notes/assumptions/41.md). -/
def Dev.protInstant (d : Dev) : Dev :=
  let d := { d with prot := { d.prot with maintIn := d.prot.maintPin } }
  if d.mode = .service then d else forEach (List.finRange 32) (fun e d => d.elementInstant e) d

/-- MEAS reports an invalidation to PROT (R68). -/
def Dev.protInvalidate (d : Dev) (qs : List (Fin 96)) : Dev :=
  if d.mode = .service then d
  else forEach (List.finRange 32) (fun e d =>
    let c := d.elementCfg e
    if c.enable ≠ 0 ∧ (d.element e).forced = .none ∧ (d.requiredQuantities c (d.element e)).any qs.contains then
      d.blockElement e
    else d) d

/-! ## Forcing (R82, R83) and modes (R89) -/

/-- FORCE_OPERATED (R82). -/
def Dev.forceOperated (d : Dev) (e : Fin 32) : Dev :=
  let r := d.element e
  if r.forced = .operated then d
  else
    let d := d.modElement e (fun r => { r with forced := .operated, picked := true,
                                               phase := if r.picked then r.phase else .none })
    if r.operated then d else d.operateElement e

/-- FORCE_BLOCKED (R82). -/
def Dev.forceBlocked (d : Dev) (e : Fin 32) : Dev :=
  if (d.element e).forced = .blocked then d
  else (d.unoperate e).modElement e (fun r => { r with forced := .blocked, picked := false, phase := .none })

/-- An element's forcing is released (R83). -/
def Dev.releaseElement (d : Dev) (e : Fin 32) : Dev := if (d.element e).forced = .none then d else d.resetElement e

/-- Forcing of every element is released (R83). -/
def Dev.releaseElements (d : Dev) : Dev := forEach (List.finRange 32) (fun e d => d.releaseElement e) d

/-- The mode enters SERVICE: every element takes the reset element state (R89). -/
def Dev.protEnterService (d : Dev) : Dev := forEach (List.finRange 32) (fun e d => d.resetElement e) d

/-- An enabled OC_INV element uses the curve and is picked up (R74). -/
def Dev.curveBusy (d : Dev) (k : Fin 8) : Bool :=
  (List.finRange 32).any (fun e => decide ((d.elementCfg e).enable = 1) && decide ((d.elementCfg e).kind = 0)
    && decide ((d.elementCfg e).curve = k.val) && (d.element e).picked)

end Sys2Proof.Machine
end

