-- ==== Sys2Proof/Machine/Streams.lean ====
section
/-!
DEFINITION. Sys2Proof/Machine/Streams.lean: the sample alignment unit (Chapter 2): placing samples, closing slots, stream
states, silence, and the phasor instant that it raises for MEAS, PROT, SWM, CHG and PAR (R38, R59).
-/
namespace Sys2Proof.Machine

/-! ## The phasor instant and invalidation (R38, R59, R60) -/

/-- A phasor instant: MEAS computes, then PROT, SWM, CHG and PAR act on its results, each taking what was reported before it
(R59; notes/assumptions/6.md). -/
def Dev.phasorInstant (d : Dev) : Dev :=
  let d := Dev.takeBusSettings { d with sau := { d.sau with inst := d.sau.inst + 1 } }
  let d := d.measure.protInstant.flush
  let d := d.evaluateBuses.flush
  d.chgInstant.flush.parInstant.flush

/-- An invalidation between instants, reported to PROT, SWM and PAR; CHG learns of it from SWM's bus reports (R60). -/
def Dev.invalidate (d : Dev) (qs : List (Fin 96)) : Dev :=
  if qs = [] then d
  else ((((d.measInvalidate qs).protInvalidate qs).invalidateBuses qs).syncInvalidate qs).flush

/-! ## Streams -/

/-- The state of a stream. -/
def Dev.stream (d : Dev) (i : Fin 24) : StreamRec := tget d.sau.streams i
/-- The stored entry of a stream. -/
def Dev.streamCfg (d : Dev) (i : Fin 24) : StreamEntry := tget d.tab.streams i

/-- The quantities that a channel map names. -/
def StreamEntry.quantities (e : StreamEntry) : List (Fin 96) := e.pairs.filterMap (fun p => toId 96 p.2)

/-- A stream in FILLING, LOCKED or HOLDING exists (R26). -/
def Dev.anyActive (d : Dev) : Bool := (List.finRange 24).any (fun i => (d.stream i).state.active)

/-- The ring becomes IDLE when no stream is left in FILLING, LOCKED or HOLDING (R33). -/
def Dev.idleIfEmpty (d : Dev) : Dev :=
  if d.anyActive then d else { d with sau := { d.sau with ring := none, silence := none } }

/-- A stream enters LOST (R34, R36). -/
def Dev.loseStream (d : Dev) (i : Fin 24) : Dev :=
  let old := (d.stream i).state
  let d := d.modStream i (fun r => { r with state := .lost, fill := 0, missing := 0 })
  (d.recordError .streamLost i.val).streamNotice i .lost old

/-- A stream enters LOCKED from FILLING (R36). -/
def Dev.lockStream (d : Dev) (i : Fin 24) : Dev :=
  (d.modStream i (fun r => { r with state := .locked })).streamNotice i .locked .filling

/-! ## Closing a slot (R30, R31, R34, R35, R37) -/

/-- A stream's transition at a slot's close, with or without its delivery (R34). -/
def Dev.closeStream (d : Dev) (i : Fin 24) (delivered : Bool) : Dev :=
  let r := d.stream i
  match r.state, delivered with
  | .filling, true =>
    let d := d.modStream i (fun r => { r with fill := r.fill + 1 })
    if 80 ≤ r.fill + 1 then d.lockStream i else d
  | .filling, false => d.modStream i (fun r => { r with fill := 0 })
  | .locked, false => d.modStream i (fun r => { r with state := .holding, missing := 1 })
  | .holding, true => d.modStream i (fun r => { r with state := .locked, missing := 0 })
  | .holding, false =>
    if 4 ≤ r.missing + 1 then d.loseStream i else d.modStream i (fun r => { r with missing := r.missing + 1 })
  | _, _ => d

/-- The transitions of every stream at a slot's close, in id order (R34; notes/assumptions/39.md). -/
def Dev.closeStreams (d : Dev) (slot : Slot) : Dev :=
  forEach (List.finRange 24) (fun i d => d.closeStream i (slot.delivered.contains i)) d

/-- A held value: the quantity's window sample 80 slots earlier (R35). -/
def heldSample (x : Sample) : Sample := if x.quality = .invalid then x else { x with quality := .held }

/-- The final value and quality of a quantity in a closing slot, after the transitions (R31). -/
def Dev.finalValue (d : Dev) (slot : Slot) (q : Fin 96) : Sample :=
  match d.tab.streamOf q with
  | none => {}
  | some i =>
    if slot.delivered.contains i then tget slot.values q
    else if (d.stream i).state = .holding then heldSample ((d.quantity q).window[0])
    else {}

/-- The ring with its oldest slot gone and an empty one at distance 15 (R30). -/
def Ring.advance (r : Ring) (c : Nat) : Ring :=
  { oldest := (r.oldest + 1) % c
    slots := Vector.ofFn (fun i => if h : i.val + 1 < 16 then r.slots[i.val + 1] else {})
    newest := if r.newest = some r.oldest then none else r.newest }

/-- The distance of an aligned count from the oldest open slot (R25). -/
def Ring.distance (r : Ring) (c a : Nat) : Nat := (a + c - r.oldest) % c

/-- The streams that are LOCKED or HOLDING in one state and not in another: those that leave service. -/
def leftService (before after : Dev) : List (Fin 24) :=
  idsWhere 24 (fun i => (before.stream i).state.inService && !(after.stream i).state.inService)

/-- The oldest open slot closes (R30, R31, R34, R37, R38). -/
def Dev.closeSlot (d : Dev) (r : Ring) : Dev :=
  let slot := r.slots[0]
  let d' := d.closeStreams slot
  let values := Vector.ofFn (d'.finalValue slot)
  let left := leftService d d'
  let d' := Dev.captureSlot { d' with meas := d'.meas.takeSlot values } values
  let d' := { d' with sau := { d'.sau with ring := some (r.advance (Config.modulus d'.f60)) } }
  let d' := if r.oldest % 20 = 19 then d'.phasorInstant
            else d'.invalidate (left.flatMap (fun i => (d'.streamCfg i).quantities))
  d'.idleIfEmpty

/-- The oldest open slot is to close: complete, or at wait depth (R30). -/
def Dev.mustClose (d : Dev) (r : Ring) : Bool :=
  let slot := r.slots[0]
  (d.anyActive && (List.finRange 24).all (fun i => !(d.stream i).state.active || slot.delivered.contains i))
    || r.newest.any (fun n => decide (3 ≤ r.distance (Config.modulus d.f60) n))

/-- The oldest open slot is examined, again after each close (R30). -/
def Dev.examineRing : Nat → Dev → Dev
  | 0, d => d
  | n + 1, d =>
    match d.sau.ring with
    | none => d
    | some r => if d.mustClose r then Dev.examineRing n (d.closeSlot r) else d

/-- A placement closes at most the 16 open slots. -/
def examineLimit : Nat := 20

/-! ## Placing a sample (R25 to R28) -/

/-- A sample's value clamped to the range, with its quality lowered if that changed it (R28). -/
def clampSample (v : Int) (q : Quality) : Sample :=
  if Config.sampleLimit < v ∨ v < -Config.sampleLimit then
    { value := clamp (-Config.sampleLimit) Config.sampleLimit v, quality := if q = .good then .questionable else q }
  else { value := v, quality := q }

/-- What a pair of a channel map places: the channel's value and quality, or INVALID with value 0 where the frame has no such
channel (R28). -/
def placedSample (ch : Nat) (qs : List Quality) (vs : List Int) : Sample :=
  match vs[ch]?, qs[ch]? with
  | some v, some ql => clampSample v ql
  | _, _ => {}

/-- A slot with a stream's sample placed by its channel map (R28). Where one map names a quantity twice, the last pair stands
(notes/assumptions/36.md). -/
def Slot.place (s : Slot) (i : Fin 24) (pairs : List (Nat × Nat)) (qs : List Quality) (vs : List Int) : Slot :=
  { values := forEach pairs (fun p values => (toId 96 p.2).elim values (fun q => tset values q (placedSample p.1 qs vs))) s.values
    delivered := i :: s.delivered }

/-- A sample is accepted into a slot of the ring (R28). -/
def Dev.acceptSample (d : Dev) (i : Fin 24) (r : Ring) (a : Nat) (qs : List Quality) (vs : List Int) : Dev :=
  let c := Config.modulus d.f60
  let dist := r.distance c a
  let further := r.newest.all (fun n => decide (r.distance c n < dist))
  let r := match toId 16 dist with
    | some k => { r with slots := tmod r.slots k (fun s => s.place i (d.streamCfg i).pairs qs vs)
                         newest := if further then some a else r.newest }
    | none => r
  let d := { d with sau := { d.sau with ring := some r, silence := some (after d.now Config.silenceMs) } }
  let d := d.modStream i (fun x =>
    if x.state = .seeking ∨ x.state = .lost then
      { x with outOfWindow := 0, last := some a, state := .filling, fill := 0, missing := 0 }
    else { x with outOfWindow := 0, last := some a })
  Dev.examineRing examineLimit d

/-- A sample out of window: the fourth in a row makes its stream LOST (R27). -/
def Dev.outOfWindow (d : Dev) (i : Fin 24) : Dev :=
  let r := d.stream i
  if 4 ≤ r.outOfWindow + 1 then
    let d := d.modStream i (fun r => { r with outOfWindow := 0 })
    if r.state = .lost then d
    else
      let d := d.loseStream i
      let d := if r.state.inService then d.invalidate (d.streamCfg i).quantities else d
      d.idleIfEmpty
  else d.modStream i (fun r => { r with outOfWindow := r.outOfWindow + 1 })

/-- A sample of an enabled stream is handed over (R26, R27). -/
def Dev.takeSample (d : Dev) (i : Fin 24) (count : Nat) (qs : List Quality) (vs : List Int) : Dev :=
  let c := Config.modulus d.f60
  let a := (count + (d.streamCfg i).delay) % c
  match d.sau.ring with
  | none => d.acceptSample i { oldest := a } a qs vs
  | some r =>
    let dist := r.distance c a
    if c / 2 ≤ dist then d.modStream i (fun x => { x with late := sat32 x.late, outOfWindow := 0 })
    else match toId 16 dist with
      | none => d.outOfWindow i
      | some k =>
        if (tget r.slots k).delivered.contains i then
          d.modStream i (fun x => { x with duplicate := sat32 x.duplicate, outOfWindow := 0 })
        else d.acceptSample i r a qs vs

/-- A missing-sample report (R29). -/
def Dev.missingSample (d : Dev) (i : Fin 24) : Dev := d.modStream i (fun x => { x with malformed := sat32 x.malformed })

/-- The silence timer expires (R32). Streams are lost in id order (notes/assumptions/39.md). -/
def Dev.expireSilence (d : Dev) : Dev :=
  if reached? d.sau.silence d.now then
    let lost := idsWhere 24 (fun i => (d.stream i).state.active)
    let left := lost.filter (fun i => (d.stream i).state.inService)
    let d := forEach lost (fun i d => d.loseStream i) d
    let d := (d.recordError .streamsSilent noSubject).idleIfEmpty
    d.invalidate (left.flatMap (fun i => (d.streamCfg i).quantities))
  else d

/-! ## A written stream entry (R24) -/

/-- A ring with a stream's deliveries withdrawn and its quantities INVALID in every open slot (R24). -/
def Ring.withdraw (r : Ring) (i : Fin 24) (qs : List (Fin 96)) (c : Nat) : Ring :=
  let slots := r.slots.map (fun s =>
    { values := forEach qs (fun q v => tset v q {}) s.values, delivered := s.delivered.filter (fun x => decide (x ≠ i)) : Slot })
  let placed := (idsWhere 16 (fun k => decide ((tget slots k).delivered ≠ []))).getLast?
  { r with slots := slots, newest := placed.map (fun k => (r.oldest + k.val) % c) }

/-- A written stream entry is restarted; `old` is the entry before the write (R24). The deliveries and values that an entry left in
open slots before it was LOST stand (notes/assumptions/45.md). -/
def Dev.restartStream (d : Dev) (i : Fin 24) (old : StreamEntry) : Dev :=
  let r := d.stream i
  let d := if r.state.active then
      { d with sau := { d.sau with ring := d.sau.ring.map (fun x => x.withdraw i old.quantities (Config.modulus d.f60)) } }
    else d
  d.modStream i (fun _ => { state := if (d.streamCfg i).enable = 1 then .seeking else .off })

end Sys2Proof.Machine
end

