-- ==== Sys2Proof/Machine/Validation.lean ====
section
/-!
DEFINITION. Sys2Proof/Machine/Validation.lean: the checks that each chapter makes of a written record, per entry and against a
table set (R22, R42, R49, R64, R78, R91, R98, R120, R127, R129, R153, R184, R206, R207), and what a stored table that fails
them at a reset is taken as (R218).
-/
namespace Sys2Proof.Machine

/-- Every entry after the first `k` satisfies a test. -/
def restAll {α : Type} (xs : List α) (k : Nat) (p : α → Bool) : Bool := (xs.drop k).all p

/-! ## Per-entry checks -/

/-- DEVICE (R206). -/
def DeviceEntry.ok (e : DeviceEntry) : Bool :=
  within 1 0xFFFE e.station && within 0 0xFFFF e.notice && within 0 2 e.startMode && within 0 2 e.freq
    && decide (e.notice ≠ e.station)

/-- The quantities of two channel maps are disjoint (R22). -/
def StreamEntry.disjoint (e f : StreamEntry) : Bool := e.pairs.all (fun p => !f.maps p.2)

/-- STREAMS (R22). An enable or forward flag outside 0..1 fails (notes/assumptions/37.md). An entry that a WRITE leaves unchanged is
not judged again, but for its quantities against those of the entries written (notes/assumptions/53.md). -/
def Tables.streamOk (t : Tables) (i : Fin 24) : Bool :=
  let e := tget t.streams i
  e.unused || (within 0 1 e.enable && within 1 0xFFFE e.source && within 1 8 e.count
    && distinct (e.pairs.map Prod.fst) && e.pairs.all (fun p => within 0 7 p.1 && within 0 95 p.2)
    && within 0 15 e.delay && within 0 1 e.forward
    && (List.finRange 24).all (fun j => decide (j = i) || e.disjoint (tget t.streams j)))

/-- QUANTITIES (R42). -/
def Tables.kindOk (t : Tables) (q : Fin 96) : Bool := within 0 1 (tget t.kinds q)

/-- A quantity is a VOLTAGE (R42). -/
def Tables.isVoltage (t : Tables) (q : Fin 96) : Bool := decide (tget t.kinds q = 1)

/-- A phase set is absent, or names three distinct quantities of a kind (R49). -/
def Tables.phaseSetOk (t : Tables) (v : Vector Nat 3) (voltage : Bool) : Bool :=
  decide (v = Vector.replicate 3 255)
    || (match threeIds v with
        | some (a, b, c) => decide (a ≠ b ∧ a ≠ c ∧ b ≠ c) && [a, b, c].all (fun q => t.isVoltage q == voltage)
        | none => false)

/-- GROUPS (R49). A nominal voltage above 8,388,607 fails (notes/assumptions/37.md). -/
def Tables.groupEntryOk (t : Tables) (e : GroupEntry) : Bool :=
  t.phaseSetOk e.phaseI false && t.phaseSetOk e.phaseV true
    && (decide (e.neutral = 255) || e.neutralId.any (fun q => !t.isVoltage q))
    && within 0 8388607 e.nominal && within 0 65535 e.rating
    && (e.voltages.isSome == decide (e.nominal ≠ 0))
    && (decide (e.bus = 255) || within 0 5 e.bus)

/-- GROUPS (R49). -/
def Tables.groupOk (t : Tables) (g : Fin 24) : Bool := t.groupEntryOk (tget t.groups g)

/-- The pickup range of a kind (R63). -/
def pickupOk (kind : Nat) (p : Int) : Bool :=
  match kind with
  | 0 | 1 | 2 | 3 | 4 | 5 => decide (1 ≤ p ∧ p ≤ 8388607)
  | 6 => decide (-5000 ≤ p ∧ p ≤ -1)
  | 7 => decide (1 ≤ p ∧ p ≤ 5000)
  | _ => decide (1 ≤ p ∧ p ≤ 100000)

/-- The group has the roles an element kind needs (R64). -/
def GroupEntry.suits (g : GroupEntry) (kind : Nat) : Bool :=
  match kind with
  | 0 | 1 => g.currents.isSome
  | 2 => g.currents.isSome || g.neutralId.isSome
  | 4 | 5 | 6 | 7 => g.voltages.isSome
  | 8 => g.currents.isSome && g.voltages.isSome
  | _ => true

/-- A field that applies lies in its range; one that does not is 0 (R63, R64). -/
def applies (b : Bool) (lo hi x : Nat) : Bool := if b then within lo hi x else decide (x = 0)

/-- The settings of an enabled element that depend on its kind (R63, R64). -/
def ElementEntry.settingsOk (e : ElementEntry) : Bool :=
  let k := e.kind
  pickupOk k e.pickup
    && applies (decide (k = 1 ∨ k = 2)) 0 8388607 e.maintPickup
    && applies (decide (k = 0)) 0 7 e.curve && applies (decide (k = 0)) 5 1000 e.dial
    && applies (decide (k ≠ 0 ∧ k ≠ 3)) 0 65535 e.delay && applies (decide (k = 0)) 0 1 e.resetMode
    && applies (decide (k = 0 ∧ e.resetMode = 1)) 1 16777216 e.decay
    && applies (decide (k = 4)) 0 1 e.phaseMode && applies (decide (k = 3)) 10 90 e.slope

/-- The trip set and the flags of an enabled element (R63, R64). -/
def ElementEntry.outputsOk (e : ElementEntry) : Bool :=
  let ids := e.trip.toList.take e.tripCount
  within 0 4 e.tripCount && ids.all (within 0 23) && distinct ids && restAll e.trip.toList e.tripCount (fun x => decide (x = 255))
    && within 0 1 e.lockout && within 0 1 e.block && within 0 1 e.bf && within 0 2 e.monitor && within 0 1 e.capture

/-- The source of an enabled element (R64). -/
def Tables.elementSourceOk (t : Tables) (e : ElementEntry) : Bool :=
  if e.kind = 3 then within 0 3 e.source else (toId 24 e.source).any (fun g => (tget t.groups g).suits e.kind)

/-- ELEMENTS (R64). Of an entry with enable 0 only the enable and the kind are judged (notes/assumptions/38.md). -/
def Tables.elementOk (t : Tables) (i : Fin 32) : Bool :=
  let e := tget t.elements i
  within 0 1 e.enable && within 0 8 e.kind
    && (decide (e.enable = 0) || (t.elementSourceOk e && e.settingsOk && e.outputsOk))

/-- ZONES (R78). -/
def Tables.zoneOk (t : Tables) (z : Fin 4) : Bool := t.zoneEntryOk (tget t.zones z)

/-- The side buses suit the kind (R91). -/
def BreakerEntry.sidesOk (e : BreakerEntry) : Bool :=
  within 0 5 e.side1 && (decide (e.side2 = 255) || within 0 5 e.side2)
    && (match e.kind with
        | 3 => decide (e.side2 = 255)
        | 4 => decide (e.side2 ≠ e.side1)
        | _ => decide (e.side2 ≠ 255 ∧ e.side2 ≠ e.side1))

/-- A close permissive term of breaker b (R91). -/
def PermTerm.ok (p : PermTerm) (b : Fin 24) : Bool :=
  if p.cond ≤ 1 then within 0 23 p.id && decide (p.id ≠ b.val)
  else decide (p.cond ≤ 3) && within 0 5 p.id

/-- The backup set and the close permissives of breaker b (R91). -/
def BreakerEntry.listsOk (e : BreakerEntry) (b : Fin 24) : Bool :=
  let ids := e.backup.toList.take e.backupCount
  within 0 4 e.backupCount && ids.all (within 0 23) && distinct ids && !ids.contains b.val
    && restAll e.backup.toList e.backupCount (fun x => decide (x = 255))
    && within 0 4 e.permCount && e.terms.all (fun p => p.ok b)
    && restAll e.perms.toList e.permCount (fun p => decide (p = { cond := 0, id := 255 }))

/-- The used steps of a scheme (R128). -/
def SchemeEntry.used (e : SchemeEntry) : List StepEntry := e.steps.toList.take e.count

/-- The breaker a step names: the object of OPEN, CLOSE_DEAD and CLOSE_SYNC, and of an AWAIT of a breaker (R128, R129). -/
def StepEntry.named (s : StepEntry) : Option (Fin 24) :=
  if s.kind = 4 ∧ s.cond ≤ 1 then toId 24 s.object else s.breaker

/-- A stored scheme step names a breaker (R91). -/
def Tables.schemeNames (t : Tables) (b : Fin 24) : Bool :=
  t.schemes.toList.any (fun e => e.used.any (fun s => decide (s.named = some b)))

/-- A stored generator entry names a breaker as its own (R91). -/
def Tables.genNames (t : Tables) (b : Fin 24) : Bool := t.gens.toList.any (fun e => e.used && decide (e.breaker = b.val))

/-- BREAKERS (R91). -/
def Tables.breakerOk (t : Tables) (b : Fin 24) : Bool :=
  let e := tget t.breakers b
  !e.used || (within 1 0xFFFE e.addr && within 0 4 e.kind && within 40 2000 e.timeout && within 50 500 e.bfDelay
    && within 0 1 e.lockout && e.sidesOk && e.listsOk b
    && !(if e.isGen then t.schemeNames b else t.genNames b))

/-- BUSES (R98). -/
def Tables.busOk (t : Tables) (y : Fin 6) : Bool :=
  let e := tget t.buses y
  (decide (e.group = 255) || (toId 24 e.group).any (fun g => (tget t.groups g).voltages.isSome))
    && within 1 100 e.live && within 0 99 e.dead && decide (e.dead < e.live) && within 0 1 e.block

/-- A bus has a voltage group (R120, R153). -/
def Tables.busMeasured (t : Tables) (y : Fin 6) : Bool := (toId 24 (tget t.buses y).group).isSome

/-- SOURCES (R120). -/
def Tables.sourceOk (t : Tables) (u : Fin 2) : Bool :=
  let e := tget t.sources u
  (decide (e.bus = 255) || (toId 6 e.bus).any t.busMeasured)
    && decide (-5000 ≤ e.low ∧ e.low ≤ -1) && within 1 5000 e.high && within 50 30000 e.lossDelay && within 1 1800 e.returnDelay
    && (decide (e.bus = 255) || decide ((tget t.sources 0).bus ≠ (tget t.sources 1).bus))

/-- CAUSES (R127). -/
def Tables.causeOk (t : Tables) (c : Fin 5) : Bool := decide (tget t.causes c = 255) || within 0 7 (tget t.causes c)

/-- The object of an AWAIT by its condition (R128). -/
def awaitObjectOk (cond object : Nat) : Bool :=
  match cond with
  | 0 | 1 => within 0 23 object
  | 2 | 3 => within 0 5 object
  | 4 => within 1 6 object
  | _ => false

/-- A used step of a scheme with a step count (R128, R129). -/
def StepEntry.ok (s : StepEntry) (count : Nat) : Bool :=
  match s.kind with
  | 1 | 2 => within 0 23 s.object && decide (s.cond = 0 ∧ s.time = 0 ∧ s.link = 0)
  | 3 => within 0 23 s.object && within 1000 600000 s.time && decide (s.cond = 0 ∧ s.link = 0)
  | 4 => awaitObjectOk s.cond s.object && within 1 600000 s.time && (decide (s.link = 255) || decide (s.link < count))
  | 5 => within 1 600000 s.time && decide (s.object = 0 ∧ s.cond = 0 ∧ s.link = 0)
  | 6 => within 1 6 s.object && decide (s.cond = 0 ∧ s.time = 0 ∧ s.link = 0)
  | 7 => decide (s.object = 0 ∧ s.cond = 0 ∧ s.time = 0 ∧ s.link = 0)
  | 8 => within 0 4 s.object && within 0 1 s.cond && decide (s.time = 0) && (decide (s.link = 255) || within 0 7 s.link)
  | _ => false

/-- A breaker is of kind GEN (R129). -/
def Tables.isGenBreaker (t : Tables) (b : Fin 24) : Bool := (tget t.breakers b).isGen

/-- SCHEMES (R129). -/
def Tables.schemeOk (t : Tables) (s : Fin 8) : Bool :=
  let e := tget t.schemes s
  within 1 32 e.count && within 20 500 e.limit
    && (decide (e.tripBreaker = 255) || (toId 24 e.tripBreaker).any (fun b => !t.isGenBreaker b))
    && e.used.all (fun x => x.ok e.count && !x.named.any t.isGenBreaker)
    && restAll e.steps.toList e.count (fun x => decide (x = {}))
    && e.used.getLast?.any (fun x => decide (x.kind = 8))

/-- A used generator entry by itself (R151, R153). -/
def Tables.genEntryOk (t : Tables) (e : GenEntry) : Bool :=
  within 1 0xFFFE e.addr && (toId 24 e.breaker).any t.isGenBreaker
    && (toId 24 e.group).any (fun g =>
        let k := tget t.groups g
        k.voltages.isSome && k.currents.isSome && decide (k.nominal ≠ 0) && (decide (e.rating ≠ 0) || decide (k.rating ≠ 0)))
    && within 0 65535 e.rating && within 1 6 e.rank && within 1 600 e.startTimeout && within 1 600 e.syncTimeout
    && within 1 65535 e.ramp && within 0 3600 e.cooldown

/-- The side-1 bus of a generator entry's breaker. -/
def Tables.genSideBus (t : Tables) (e : GenEntry) : Option (Fin 6) := (toId 24 e.breaker).bind (fun b => (tget t.breakers b).bus1)

/-- The generator entries of GENERATORS together (R151, R153). -/
def Tables.gensOk (t : Tables) : Bool :=
  let used := t.gens.toList.filter GenEntry.used
  t.gens.toList.all (fun e => if e.used then t.genEntryOk e else decide (e = {}))
    && distinct (used.map GenEntry.addr) && distinct (used.map GenEntry.breaker) && distinct (used.map GenEntry.rank)
    && (match used with
        | [] => true
        | e :: _ => (t.genSideBus e).any t.busMeasured && used.all (fun x => decide (t.genSideBus x = t.genSideBus e)))

/-- The paralleling record (R152, R153). -/
def ParEntry.ok (e : ParEntry) : Bool :=
  within 0 21845 e.angle && within 0 8388607 e.voltWindow && within 1 1000 e.slipWindow && decide (e.targetSlip ≤ e.slipWindow)
    && within 0 1000 e.gs && within 0 1000 e.gv && within 0 1000 e.gl && within 0 1000 e.gf && within 0 1000 e.gq

/-- CAPTURE_CONFIG (R184). -/
def CaptureEntry.ok (e : CaptureEntry) : Bool :=
  within 0 16 e.count && e.used.all (within 0 95) && distinct e.used
    && restAll e.channels.toList e.count (fun x => decide (x = 255))
    && (decide (e.count = 0)
        || (decide (e.pre < capRows e.count) && within 1 (capRows e.count) e.post && decide (e.pre + e.post ≤ capRows e.count)))
    && within 0 1 e.policy && within 0 1 e.element && within 0 1 e.transfer && within 0 1 e.gen && within 0 1 e.manual

/-- SETTINGS_LOCK (R207). A direction or a complement outside 0..1 fails (notes/assumptions/37.md). -/
def LockEntry.ok (e : LockEntry) : Bool :=
  within 0 1 e.fromTop && [0, 1, 2, 4, 8, 16, 32].contains e.span && within 0 1 e.complement

/-! ## Written records (R204, step 6) -/

/-- A written record passes its chapter's checks in the tables as they would stand after the write. -/
def Tables.recordOk (t : Tables) (a i : Nat) : Bool :=
  match a with
  | 2 => t.device.ok
  | 3 => (toId 24 i).any t.streamOk
  | 4 => (toId 96 i).any t.kindOk
  | 5 => (toId 24 i).any t.groupOk
  | 6 => (toId 32 i).any t.elementOk
  | 7 => true
  | 8 => (toId 4 i).any t.zoneOk
  | 9 => (toId 24 i).any t.breakerOk
  | 10 => (toId 6 i).any t.busOk
  | 11 => (toId 2 i).any t.sourceOk
  | 12 => (toId 5 i).any t.causeOk
  | 13 => (toId 8 i).any t.schemeOk
  | 14 => t.gensOk && t.par.ok
  | 15 => t.capture.ok
  | 20 => t.lock.ok
  | _ => false

/-- The checks a write makes of other areas: a stored entry of theirs must not be left failing its own checks (R42, R49, R98). -/
def Tables.othersOk (t : Tables) (a : Nat) : Bool :=
  match a with
  | 4 => (List.finRange 24).all t.groupOk
  | 5 => (List.finRange 32).all t.elementOk && (List.finRange 4).all t.zoneOk && (List.finRange 6).all t.busOk && t.gensOk
  | 10 => (List.finRange 2).all t.sourceOk && t.gensOk
  | _ => true

/-- The field checks of a write pass (R204, step 6). `raw` are the records as written, where a lockout or a transfer block is
checked for range though it is not taken (R91, R98). Of the area written, the records written are judged alone
(notes/assumptions/53.md). -/
def writeOk (t : Tables) (a first : Nat) (raw : List (List Int)) : Bool :=
  let after := t.writeRecords a first raw
  (List.range raw.length).all (fun k => after.recordOk a (first + k)) && after.othersOk a
    && (match a with
        | 9 => raw.all (fun v => decide (nat v 0 = 0) || within 0 1 (BreakerEntry.ofInts v).lockout)
        | 10 => raw.all (fun v => within 0 1 (BusEntry.ofInts v).block)
        | _ => true)

/-! ## Stored tables at a reset (R218) -/

/-- The ids of an area that fail, at a reset. -/
def failing (n : Nat) (ok : Fin n → Bool) : List (Fin n) := idsWhere n (fun i => !ok i)

/-- The areas with a stored table that fails its checks, each judged against the tables as stored, in code order (R218). -/
def Tables.failedAreas (t : Tables) : List Nat :=
  let f := fun (n : Nat) (ok : Fin n → Bool) => !(failing n ok).isEmpty
  ([(2, !t.device.ok), (3, f 24 t.streamOk), (4, f 96 t.kindOk), (5, f 24 t.groupOk), (6, f 32 t.elementOk),
    (8, f 4 t.zoneOk), (9, f 24 t.breakerOk), (10, f 6 t.busOk), (11, f 2 t.sourceOk), (12, f 5 t.causeOk),
    (13, f 8 t.schemeOk), (14, !t.gensOk || !t.par.ok), (15, !t.capture.ok), (20, !t.lock.ok)].filter (fun x => x.2)).map Prod.fst

/-- A table with its failing entries taken as given. -/
def repairTable {α : Type} {n : Nat} (v : Vector α n) (ok : Fin n → Bool) (f : α → α) : Vector α n :=
  Vector.ofFn (fun i => if ok i then tget v i else f (tget v i))

/-- What a stored breaker entry that fails is taken as (R119). -/
def BreakerEntry.repaired (e : BreakerEntry) : BreakerEntry :=
  { addr := e.addr, kind := if e.kind ≤ 4 then e.kind else 4
    side1 := if e.side1 ≤ 5 then e.side1 else 255, side2 := if e.side2 ≤ 5 then e.side2 else 255
    timeout := if within 40 2000 e.timeout then e.timeout else 2000
    bfDelay := if within 50 500 e.bfDelay then e.bfDelay else 500
    lockout := e.lockout }

/-- The stored tables as the blocks take them at a reset (R39, R62, R90, R119, R150, R182, R198, R218). A zone that fails is taken as
stored, and blocks the DIFF elements that name it (`Dev.zoneBlocked`; R90). -/
def Tables.repaired (t : Tables) : Tables :=
  { device := if t.device.ok then t.device else {}
    streams := repairTable t.streams t.streamOk (fun e => { e with enable := 0 })
    kinds := repairTable t.kinds t.kindOk (fun _ => 0)
    groups := repairTable t.groups t.groupOk (fun _ => {})
    elements := repairTable t.elements t.elementOk (fun e => { e with enable := 0 })
    curves := t.curves
    zones := t.zones
    breakers := repairTable t.breakers t.breakerOk BreakerEntry.repaired
    buses := repairTable t.buses t.busOk (fun e => { e with group := 255 })
    sources := repairTable t.sources t.sourceOk (fun e => { e with bus := 255 })
    causes := repairTable t.causes t.causeOk (fun _ => 255)
    schemes := repairTable t.schemes t.schemeOk (fun _ => {})
    gens := if t.gensOk then t.gens else Vector.replicate 6 {}
    par := if t.par.ok then t.par else {}
    capture := if t.capture.ok then t.capture else {}
    lock := if t.lock.ok then t.lock else {} }

end Sys2Proof.Machine
end

