-- ==== Sys2Proof/Machine/Settings.lean ====
section
/-!
DEFINITION. Sys2Proof/Machine/Settings.lean: the completion of a WRITE's store write (R205), with the effects that each owning
chapter gives a completed write (R24, R42, R49, R64, R92, R98, R120, R153, R185, R206), and the completion of a state store
write.
-/
namespace Sys2Proof.Machine

/-! ## Effects of a completed write -/

/-- The ids of an area that a write of `n` records from `first` on covers. -/
def covered (size first n : Nat) : List (Fin size) := idsWhere size (fun i => decide (first ≤ i.val ∧ i.val < first + n))

/-- The device with a write's records taken into the blocks' tables. -/
def Dev.takeRecords (d : Dev) (a first : Nat) (recs : List (List Int)) : Dev :=
  { d with tab := d.tab.writeRecords a first recs }

/-- STREAMS: each entry is restarted, and what left service is invalidated (R24, R60). -/
def Dev.streamsWritten (d : Dev) (first : Nat) (recs : List (List Int)) : Dev :=
  let ids := covered 24 first recs.length
  let d' := d.takeRecords 3 first recs
  let d' := forEach ids (fun i x => x.restartStream i (d.streamCfg i)) d'
  let left := ids.filter (fun i => (d.stream i).state.inService)
  (d'.idleIfEmpty).invalidate (left.flatMap (fun i => (d.streamCfg i).quantities ++ (d'.streamCfg i).quantities))

/-- GROUPS: each group restarts (R49). -/
def Dev.groupsWritten (d : Dev) (first : Nat) (recs : List (List Int)) : Dev :=
  let d := d.takeRecords 5 first recs
  forEach (covered 24 first recs.length)
    (fun g x => { x with meas := { x.meas with groups := tmod x.meas.groups g GroupRec.restart } }) d

/-- ELEMENTS: each element takes the reset element state, its forcing is released and its operate count becomes 0 (R64). The
un-operation is that of the old entry. -/
def Dev.elementsWritten (d : Dev) (first : Nat) (recs : List (List Int)) : Dev :=
  let d := forEach (covered 32 first recs.length)
    (fun e x => (x.resetElement e).modElement e (fun r => { r with opCount := 0, included := [] })) d
  d.takeRecords 6 first recs

/-- ZONES: the inclusion of the last evaluation named members of the old zone, so it is dropped (R78; notes/assumptions/17.md). -/
def Dev.zonesWritten (d : Dev) (first : Nat) (recs : List (List Int)) : Dev :=
  let zs := covered 4 first recs.length
  let d := d.takeRecords 8 first recs
  forEach (List.finRange 32) (fun e x =>
    if (x.elementCfg e).isDiff && (toId 4 (x.elementCfg e).source).any zs.contains then
      x.modElement e (fun r => { r with included := [] })
    else x) d

/-- The volatile status of reset, apart from the forced overlay and the next command id (R92). -/
def BreakerRec.renewed (r : BreakerRec) (now : Count32) : BreakerRec :=
  { forced := r.forced, nextId := r.nextId, ageFrom := now }

/-- BREAKERS: an entry whose bay address has changed takes the volatile status of reset (R92); a written entry no longer
counts as failed (R119). -/
def Dev.breakersWritten (d : Dev) (first : Nat) (recs : List (List Int)) : Dev :=
  let d' := d.takeRecords 9 first recs
  forEach (covered 24 first recs.length) (fun b x =>
    if (d.breakerCfg b).addr = (x.breakerCfg b).addr then x.modBreaker b (fun r => { r with failedCfg := false })
    else (x.updateBreaker b (fun r => r.renewed x.now)).removeCommand b) d'

/-- The voltage group in force before a WRITE goes on measuring the bus (R98). -/
def BusRec.holdGroup (r : BusRec) (group : Nat) : BusRec := { r with prior := some (r.prior.getD group) }

/-- BUSES: the new settings are used from the next instant; the thresholds are read at instants alone (R98). -/
def Dev.busesWritten (d : Dev) (first : Nat) (recs : List (List Int)) : Dev :=
  forEach (covered 6 first recs.length) (fun y x => x.modBus y (fun r => r.holdGroup (d.busCfg y).group))
    (d.takeRecords 10 first recs)

/-- SOURCES: a changed line-side bus returns its source to UNKNOWN, and the parallel is examined again (R120, R144). -/
def Dev.sourcesWritten (d : Dev) (first : Nat) (recs : List (List Int)) : Dev :=
  let d' := d.takeRecords 11 first recs
  let d' := (d'.sourceWritten .a (d.sourceCfg .a).bus).sourceWritten .b (d.sourceCfg .b).bus
  d'.reexamine

/-- A controller's report takes the values of reset (R153, R182). -/
def GenRec.renewed (r : GenRec) (now : Count32) : GenRec :=
  { r with engine := .unknown, ready := false, manual := true, ageFrom := now, aged := false }

/-- GENERATORS: a changed controller address restarts the controller's report (R153). -/
def Dev.generatorsWritten (d : Dev) (first : Nat) (recs : List (List Int)) : Dev :=
  let d' := d.takeRecords 14 first recs
  forEach (covered 6 first recs.length)
    (fun g x => if (d.genCfg g).addr = (x.genCfg g).addr then x else x.modGen g (fun r => r.renewed x.now)) d'

/-- CAPTURE_CONFIG: the new settings take effect by CAP's state (R185). -/
def Dev.captureWritten (d : Dev) (first : Nat) (recs : List (List Int)) : Dev :=
  let d' := d.takeRecords 15 first recs
  { d' with cap := d'.cap.configure d.tab.capture d'.tab.capture }

/-- The records of a write take effect in the blocks (R205). -/
def Dev.written (d : Dev) (a first : Nat) (recs : List (List Int)) : Dev :=
  match a with
  | 3 => d.streamsWritten first recs
  | 5 => d.groupsWritten first recs
  | 6 => d.elementsWritten first recs
  | 8 => d.zonesWritten first recs
  | 9 => d.breakersWritten first recs
  | 10 => d.busesWritten first recs
  | 11 => d.sourcesWritten first recs
  | 14 => d.generatorsWritten first recs
  | 15 => d.captureWritten first recs
  | _ => d.takeRecords a first recs

/-! ## Responses -/

/-- The request in service begins its response (R200). -/
def Dev.respond (d : Dev) (q : Request) (r : Response) : Dev := (d.setService (some ⟨q, .sending r⟩)).runPort q.port

/-! ## Completions (R205) -/

/-- A completed WRITE's response, once its effects have been taken. P2 is not run for notices that a written notice address lets
go: they wait for P2's next free moment (notes/assumptions/35.md). -/
def Dev.writeTaken (d : Dev) (q : Request) (a first : Nat) (recs : List (List Int)) : Dev :=
  (d.written a first recs).flush.respond q { result := resOk, owed := true }

/-- A WRITE whose store write has failed (R205). -/
def Dev.writeFailed (d : Dev) (q : Request) (a : Nat) : Dev :=
  (d.recordError .storeFault a).respond q { result := resNotWritable, owed := true }

/-- The store write of a WRITE of an area ends, if one is in progress (R205). -/
def State.completeWrite (s : State) (a : Nat) (ok : Bool) : State :=
  match s.dev.mgt.service with
  | some ⟨q, .storing x first recs⟩ =>
    if x = a then
      if ok then { s with nv := s.nv.writeRecords a first recs, dev := s.dev.writeTaken q a first recs }
      else { s with dev := s.dev.writeFailed q a }
    else s
  | _ => s

/-- The area of a state store write, the subject of its STORE_FAULT (R205). -/
def StoreJob.area : StoreJob → Nat
  | .lockout _ _ => 9
  | .block _ _ => 10
  | .cause _ _ => 12

/-- The stored tables with a state store write taken (R205). -/
def Tables.store (t : Tables) : StoreJob → Tables
  | .lockout b v => t.setLockout b v
  | .block y v => t.setBlock y v
  | .cause c v => { t with causes := tset t.causes c v }

/-- The oldest state store write ends (R205). -/
def State.completeJob (s : State) (ok : Bool) : State :=
  match s.dev.swm.jobs with
  | [] => s
  | j :: js =>
    let d := { s.dev with swm := { s.dev.swm with jobs := js } }
    if ok then { s with nv := s.nv.store j, dev := d }
    else { s with dev := (d.recordError .storeFault j.area).flush }

end Sys2Proof.Machine
end

