-- ==== Sys2Proof/Machine/Management.lean ====
section
/-!
DEFINITION. Sys2Proof/Machine/Management.lean: the management responder (Chapter 9): requests at arrival, the serving of the
request at the head of the queue, the checks of WRITE, WATCH, FORCE, select before operate, MGT's own targets, errors and the
capture requests.
-/
namespace Sys2Proof.Machine

/-! ## Arrival (R199, R217) -/

/-- The selection ends when it is an originator's (R210). -/
def Dev.endSelection (d : Dev) (src : Nat) : Dev :=
  if d.mgt.selection.any (fun s => decide (s.owner = src)) then d.modMgt (fun m => { m with selection := none }) else d

/-- The response of an originator's request in service, which an ABORT stops: the port it uses. That of a WRITE whose store write
has begun is not stopped before its segment is placed (R217). -/
def Dev.stoppable (d : Dev) (src : Nat) : Option Port :=
  match d.mgt.service with
  | some ⟨q, .sending r⟩ => if q.src = src ∧ (r.owed = true → r.placed = true) then some q.port else none
  | some ⟨q, .acting⟩ => if q.src = src then some q.port else none
  | _ => none

/-- A response is stopped (R217): no further segment is placed, and one in its slot no longer ends a request's service. -/
def Dev.stopResponse (d : Dev) (p : Port) : Dev :=
  (d.setService none).modPort p (fun r => { r with slot := r.slot.map (fun e => { e with endsService := false }) })

/-- An ABORT acts and is answered (R217). The frame of its reply is built as it arises (notes/assumptions/64.md). -/
def Dev.abort (d : Dev) (q : Request) : Dev :=
  let removed := (d.mgt.queue.filter (fun x => decide (x.src = q.src))).length
  let d := d.modMgt (fun m => { m with queue := m.queue.filter (fun x => decide (x.src ≠ q.src)) })
  let stop := d.stoppable q.src
  let d := match stop with
    | some p => d.stopResponse p
    | none => d
  let d := d.endSelection q.src
  d.immediateReply q.port (d.segmentFrame q resOk 0 true (beBytes 1 removed ++ beBytes 1 (bit stop.isSome)))

/-- MGT decides what to do with a request at its arrival (R199). The frame of an immediate reply is built as it arises
(notes/assumptions/64.md). -/
def Dev.takeRequest (d : Dev) (q : Request) : Dev :=
  if q.code = 13 then d.abort q
  else if d.mgt.queue.length < Config.requestCapacity then d.modMgt (fun m => { m with queue := m.queue ++ [q] })
  else d.immediateReply q.port (d.segmentFrame q resBusy 0 true [])

/-! ## Serving (R200, R201) -/

/-- The fixed part of the parameters that a code requires (R201). -/
def fixedLength (code : Nat) : Nat :=
  match code with
  | 3 | 4 => 5
  | 5 | 7 | 12 => 1
  | 9 | 10 => 2
  | 14 => 8
  | 15 | 16 | 17 => 3
  | _ => 0

/-- The request codes that MGT knows and serves from the queue (R201). -/
def knownCode (code : Nat) : Bool := decide (1 ≤ code ∧ code ≤ 18 ∧ code ≠ 13)

/-- The target of an OPERATE or SELECT. -/
def Request.target (q : Request) : Nat := field q.params 0 1
/-- The object of an OPERATE or SELECT. -/
def Request.object (q : Request) : Nat := field q.params 1 1

/-- The row of the command table that serves a request: its code, and for an OPERATE its target. An unknown code, and an
OPERATE that names no known target, are served by the row of UNKNOWN_REQUEST, (0, 0) (notes/assumptions/16.md). -/
def Request.row (q : Request) : Nat × Nat :=
  if !knownCode q.code then (0, 0)
  else if q.code = 10 then (if 2 ≤ q.params.length ∧ q.target ≤ 12 then (10, q.target) else (0, 0))
  else (q.code, 0)

/-- A refusal (R200): no data. -/
def refuse (result : Nat) : Response := { result := result }

/-- A response with data. -/
def okBytes (bs : List Byte) : Response := { result := resOk, items := [.bytes bs] }

/-- The taking of a request into service ends its originator's selection, but for a SELECT that is long enough (R210). -/
def Dev.serviceSelection (d : Dev) (q : Request) : Dev :=
  if q.code = 9 ∧ fixedLength 9 ≤ q.params.length then d else d.endSelection q.src

/-- The head of the queue enters service, when none is in service and it is of a row. -/
def Dev.enterService (d : Dev) (row : Nat × Nat) : Option (Request × Dev) :=
  match d.mgt.service, d.mgt.queue with
  | none, q :: rest =>
    if q.row = row then
      some (q, Dev.serviceSelection (d.modMgt (fun m => { m with queue := rest, service := some ⟨q, .acting⟩ })) q)
    else none
  | _, _ => none

/-- A request is served: refused LENGTH when its parameters are short, else acted on; what it reports is taken before its
response begins (R200, R201). -/
def Dev.serveRow (d : Dev) (row : Nat × Nat) (act : Dev → Request → Response × Dev) : Dev :=
  match d.enterService row with
  | none => d
  | some (q, d') =>
    if q.params.length < fixedLength q.code then d'.respond q (refuse resLength)
    else
      let x := act d' q
      x.2.flush.respond q x.1

/-! ## IDENT, ECHO, READ (R203, R217) -/

/-- IDENT (R217). -/
def Dev.actIdent (d : Dev) (_ : Request) : Response × Dev := (okBytes (d.identFields.flatMap fieldBytes), d)

/-- ECHO (R217). -/
def Dev.actEcho (d : Dev) (q : Request) : Response × Dev := (okBytes q.params, d)

/-- An area, a first record and a count lie within the areas (R203, R204). -/
def rangeOk (a first count : Nat) : Bool := decide (a ≤ 20 ∧ 1 ≤ count ∧ first + count ≤ areaCount a)

/-- READ (R203). -/
def Dev.actRead (d : Dev) (q : Request) : Response × Dev :=
  let a := field q.params 0 1
  let first := field q.params 1 2
  let count := field q.params 3 2
  if rangeOk a first count then
    ({ result := resOk, items := (List.range count).map (fun k => .record a (first + k)) }, d)
  else (refuse resRange, d)

/-! ## WRITE (R204) -/

/-- The mode in which an area may be written: none, SERVICE mode only (true), or any mode (R202). -/
def writable (a : Nat) : Option Bool :=
  if a = 6 ∨ a = 7 ∨ a = 11 ∨ a = 12 ∨ a = 13 ∨ a = 15 then some false
  else if (2 ≤ a ∧ a ≤ 14) ∨ a = 20 then some true
  else none

/-- The mode permits writing an area (R202, R204). -/
def Dev.mayWrite (d : Dev) (a : Nat) : Bool :=
  match writable a with
  | some serviceOnly => !serviceOnly || decide (d.mode = .service)
  | none => false

/-- A write covers a locked element entry (R207). -/
def Dev.writeLocked (d : Dev) (a first count : Nat) : Bool :=
  decide (a = 6) && (List.range count).any (fun k => d.tab.lock.locks (first + k))

/-- A BUSY condition of the owning chapter holds (R74, R92, R129, R153, R185). -/
def Dev.writeBusy (d : Dev) (a first : Nat) (recs : List (List Int)) : Bool :=
  match a with
  | 7 => (covered 8 first recs.length).any d.curveBusy
  | 9 => (covered 24 first recs.length).any (fun b => (d.breaker b).record.isSome || (d.breaker b).claim.isSome)
  | 13 => d.running.any (fun t => (covered 8 first recs.length).contains t.scheme)
  | 14 => (covered 6 first recs.length).any (fun g => decide ((d.gen g).state ≠ .stopped))
  | 15 => decide (d.cap.state = .post)
            && decide ((d.tab.writeRecords 15 first recs).capture.used ≠ d.tab.capture.used)
  | _ => false

/-- The result of a WRITE's checks, in the order of R204. -/
def Dev.checkWrite (d : Dev) (a first count : Nat) (bytes : List Byte) : Nat :=
  let recs := readRecords a first count bytes
  if !rangeOk a first count then resRange
  else if bytes.length ≠ count * areaSize a then resLength
  else if !d.mayWrite a then resNotWritable
  else if !d.mgw then resWriteDisabled
  else if d.writeLocked a first count then resLocked
  else if !writeOk d.tab a first recs then resInvalid
  else if d.writeBusy a first recs then resBusy
  else resOk

/-- WRITE: a refusal is answered at once, and an accepted WRITE goes to the store (R204, R205). -/
def Dev.serveWrite (d : Dev) : Dev :=
  match d.enterService (4, 0) with
  | none => d
  | some (q, d') =>
    if q.params.length < fixedLength 4 then d'.respond q (refuse resLength)
    else
      let a := field q.params 0 1
      let first := field q.params 1 2
      let count := field q.params 3 2
      let bytes := q.params.drop 5
      let r := d'.checkWrite a first count bytes
      if r = resOk then d'.setService (some ⟨q, .storing a first (readRecords a first count bytes)⟩)
      else d'.respond q (refuse r)

/-! ## WATCH (R208) -/

/-- The watch items that bytes spell. -/
def watchItems : Nat → List Byte → List WatchItem
  | 0, _ => []
  | n + 1, bs => { area := field bs 0 1, idx := field bs 1 2, field := field bs 3 1 } :: watchItems n (bs.drop 4)

/-- A watch item names a field of a record of an area (R208). -/
def Dev.watchable (d : Dev) (w : WatchItem) : Bool :=
  decide (w.area ≤ 20 ∧ w.idx < areaCount w.area) && decide (w.field < (d.areaFields w.area w.idx).length)

/-- WATCH_SET (R208). LENGTH is refused before INVALID, and INVALID before RANGE (notes/assumptions/52.md). -/
def Dev.actWatchSet (d : Dev) (q : Request) : Response × Dev :=
  let n := field q.params 0 1
  let items := watchItems n (q.params.drop 1)
  if q.params.length ≠ 1 + 4 * n then (refuse resLength, d)
  else if n < 1 ∨ 64 < n then (refuse resInvalid, d)
  else if !items.all d.watchable then (refuse resRange, d)
  else (refuse resOk, d.modMgt (fun m => { m with watch := items }))

/-- WATCH_READ (R208). -/
def Dev.actWatchRead (d : Dev) (_ : Request) : Response × Dev :=
  ({ result := resOk, items := d.mgt.watch.map (fun w => .watch w.area w.idx w.field) }, d)

/-! ## FORCE (R209) -/

/-- A FORCE item: object type, id and code. -/
abbrev ForceItem := Nat × Nat × Nat

/-- The FORCE items that bytes spell. -/
def forceItems : Nat → List Byte → List ForceItem
  | 0, _ => []
  | n + 1, bs => (field bs 0 1, field bs 1 1, field bs 2 1) :: forceItems n (bs.drop 3)

/-- A FORCE item is in range and valid for its object (R82, R96, R209). -/
def Dev.forcible (d : Dev) (x : ForceItem) : Bool :=
  if x.1 = 0 then decide (x.2.1 < 24) && decide (x.2.2 ≤ 3)
  else if x.1 = 1 then
    (toId 32 x.2.1).any (fun e => decide ((d.elementCfg e).enable = 1)) && [0, 1, 4, 5].contains x.2.2
  else false

/-- A FORCE code is applied to a breaker (R96). -/
def Dev.forceBreakerCode (d : Dev) (b : Fin 24) (code : Nat) : Dev :=
  match code with
  | 1 => d.forceBreaker b .none
  | 2 => d.forceBreaker b .openPos
  | 3 => d.forceBreaker b .closed
  | _ => d

/-- A FORCE code is applied to an element (R82). -/
def Dev.forceElementCode (d : Dev) (e : Fin 32) (code : Nat) : Dev :=
  match code with
  | 1 => d.releaseElement e
  | 4 => d.forceOperated e
  | 5 => d.forceBlocked e
  | _ => d

/-- A FORCE item is applied by its owner (R209). -/
def Dev.applyForce (d : Dev) (x : ForceItem) : Dev :=
  if x.1 = 0 then ((toId 24 x.2.1).elim d (fun b => d.forceBreakerCode b x.2.2)).flush
  else ((toId 32 x.2.1).elim d (fun e => d.forceElementCode e x.2.2)).flush

/-- FORCE (R209). LENGTH is refused before the checks of R209 (notes/assumptions/52.md). -/
def Dev.actForce (d : Dev) (q : Request) : Response × Dev :=
  let n := field q.params 0 1
  let items := forceItems n (q.params.drop 1)
  if q.params.length ≠ 1 + 3 * n then (refuse resLength, d)
  else if d.mode ≠ .test then (refuse resNotWritable, d)
  else if !d.mgw then (refuse resWriteDisabled, d)
  else if n < 1 ∨ 64 < n ∨ !items.all d.forcible then (refuse resInvalid, d)
  else (refuse resOk, forEach items (fun x d => d.applyForce x) d)

/-- FORCE_CLEAR_ALL (R209): the breakers are released before the elements (notes/assumptions/61.md). -/
def Dev.actForceClear (d : Dev) (_ : Request) : Response × Dev := (refuse resOk, d.releaseBreakers.releaseElements)

/-! ## Select before operate (R210, R211) -/

/-- SELECT (R210). An unknown target is INVALID though another originator owns the selection (notes/assumptions/65.md). -/
def Dev.actSelect (d : Dev) (q : Request) : Response × Dev :=
  if 12 < q.target then (refuse resInvalid, d)
  else if d.mgt.selection.any (fun s => decide (s.owner ≠ q.src)) then (refuse resSelectConflict, d)
  else
    let s : Selection := { owner := q.src, target := q.target, object := q.object, since := d.now }
    (refuse resOk, d.modMgt (fun m => { m with selection := some s }))

/-- CANCEL: its taking into service has ended its originator's selection (R210). -/
def Dev.actCancel (d : Dev) (_ : Request) : Response × Dev := (refuse resOk, d)

/-- The selection matches an OPERATE (R211). -/
def selectionMatches (s : Option Selection) (q : Request) : Bool :=
  s.any (fun x => decide (x.owner = q.src ∧ x.target = q.target ∧ x.object = q.object))

/-- OPERATE of a target: refused NOT_SELECTED, or decided by the target's owner, which is given the object (R211). -/
def Dev.serveOperate (d : Dev) (target : Nat) (act : Dev → Nat → Response × Dev) : Dev :=
  let selected := d.mgt.selection
  d.serveRow (10, target) (fun d q =>
    if selectionMatches selected q then act d q.object else (refuse resNotSelected, d))

/-- A result and a device as a response without data. -/
def plain (x : Nat × Dev) : Response × Dev := (refuse x.1, x.2)

/-- The selection expires (R210). -/
def Dev.expireSelection (d : Dev) : Dev :=
  match d.mgt.selection with
  | some s => if reached (after s.since Config.selectionMs) d.now then d.modMgt (fun m => { m with selection := none }) else d
  | none => d

/-! ## MGT's own targets (R212) -/

/-- The mode that an object names. -/
def modeOf (n : Nat) : Option Mode :=
  if n = 0 then some .inService else if n = 1 then some .test else if n = 2 then some .service else none

/-- A block refuses a change to a mode (R212). -/
def Dev.modeBusy (d : Dev) (m : Mode) : Bool :=
  (List.finRange 24).any (fun b => (d.breaker b).record.isSome) || d.chgBusy
    || (decide (m = .service) && !d.allSetsIdle)

/-- The mode changes, and each block takes the change (R89, R118, R147, R181, R212). CHG enters INHIBITED before PROT withdraws
its marks, so an un-operation of the change starts no transfer (notes/assumptions/30.md). As the mode leaves TEST the breakers are
released before the elements, after the resets that SERVICE makes (notes/assumptions/61.md). -/
def Dev.changeMode (d : Dev) (m : Mode) : Dev :=
  let old := d.mode
  let d := { d with mode := m }
  let d := if m = .service then d.chgEnterService.protEnterService else d
  let d := if old = .test then d.releaseBreakers.releaseElements else d
  if old = .service then d.chgLeaveService.push .meetDemand else d

/-- OPERATE MODE (R212). -/
def Dev.opMode (d : Dev) (object : Nat) : Response × Dev :=
  match modeOf object with
  | none => (refuse resInvalid, d)
  | some m =>
    if m = d.mode then (refuse resOk, d)
    else if d.modeBusy m then (refuse resBusy, d)
    else (refuse resOk, d.changeMode m)

/-- OPERATE MAINT_ON and MAINT_OFF (R81, R212). -/
def Dev.opMaint (d : Dev) (object : Nat) (v : Bool) : Response × Dev :=
  if object ≠ 0 then (refuse resInvalid, d) else (refuse resOk, { d with prot := { d.prot with maintFlag := v } })

/-- OPERATE RESTART: the reset begins when the response has gone (R212). -/
def Dev.opRestart (d : Dev) (object : Nat) : Response × Dev :=
  if object ≠ 0 then (refuse resInvalid, d) else ({ result := resOk, restart := true }, d)

/-! ## The other blocks' targets (R115 to R117, R146, R147, R179) -/

/-- OPERATE BREAKER_OPEN and BREAKER_CLOSE (R115). -/
def Dev.opBreaker (d : Dev) (object : Nat) (a : Action) : Response × Dev :=
  match toId 24 object with
  | none => (refuse resInvalid, d)
  | some b =>
    match d.request { breaker := b, action := a, requester := .block .mgt } with
    | (.ok id, d') => (okBytes (beBytes 2 id.toNat), d')
    | (.error r, d') => (refuse r.result, d')

/-- OPERATE LOCKOUT_RESET (R116). -/
def Dev.opLockoutReset (d : Dev) (object : Nat) : Response × Dev :=
  match toId 24 object with
  | none => (refuse resInvalid, d)
  | some b => plain (d.lockoutReset b)

/-- OPERATE BLOCK_RESET (R117). -/
def Dev.opBlockReset (d : Dev) (object : Nat) : Response × Dev :=
  match toId 6 object with
  | none => (refuse resInvalid, d)
  | some y => plain (d.blockReset y)

/-- OPERATE RUN_SCHEME (R146). -/
def Dev.opRun (d : Dev) (object : Nat) : Response × Dev :=
  match toId 8 object with
  | none => (refuse resInvalid, d)
  | some s => plain (d.opRunScheme s)

/-- An OPERATE of CHG that takes no object (R146, R147, R211). -/
def opChg (d : Dev) (object : Nat) (act : Dev → Nat × Dev) : Response × Dev :=
  if object ≠ 0 then (refuse resInvalid, d) else plain (act d)

/-- OPERATE GEN_RESET (R179). -/
def Dev.opGenReset (d : Dev) (object : Nat) : Response × Dev :=
  match toId 6 object with
  | none => (refuse resInvalid, d)
  | some g => plain (d.genReset g)

/-! ## ERRORS (R215) -/

/-- The entries that a clear leaves (R215). -/
def Dev.errorsKept (d : Dev) : List ErrorEntry :=
  d.mgt.errors.filter (fun e => e.code.major && decide (d.mode ≠ .service))

/-- ERRORS (R215). -/
def Dev.actErrors (d : Dev) (q : Request) : Response × Dev :=
  let flag := field q.params 0 1
  let data := beBytes 1 d.mgt.errors.length ++ d.mgt.errors.flatMap (fun e => e.fields.flatMap fieldBytes)
  if 1 < flag then (refuse resInvalid, d)
  else (okBytes data, if flag = 1 then d.modMgt (fun m => { m with errors := d.errorsKept }) else d)

/-! ## The capture requests (R194 to R197) -/

/-- CAPTURE_READ (R194). -/
def Dev.actCaptureRead (d : Dev) (q : Request) : Response × Dev :=
  let a := field q.params 0 1
  let g := field q.params 1 2
  let ch := field q.params 3 1
  let first := field q.params 4 2
  let n := field q.params 6 2
  let r := d.cap.decideRead a g ch first n
  if r = resOk then
    ({ result := resOk, capture := some { area := a, gen := g, channel := ch, next := first, remaining := n } }, d)
  else (refuse r, d)

/-- CAPTURE_DELETE (R195). -/
def Dev.actCaptureDelete (d : Dev) (q : Request) : Response × Dev :=
  let x := d.cap.delete (field q.params 0 1) (field q.params 1 2)
  (refuse x.1, { d with cap := x.2 })

/-- CAPTURE_LOCK and CAPTURE_UNLOCK (R196). -/
def Dev.actCaptureLock (d : Dev) (q : Request) (v : Bool) : Response × Dev :=
  let x := d.cap.setLock (field q.params 0 1) (field q.params 1 2) v
  (refuse x.1, { d with cap := x.2 })

/-- CAPTURE_TRIGGER (R197). -/
def Dev.actCaptureTrigger (d : Dev) (q : Request) : Response × Dev :=
  let taken := d.tab.capture.enables .manual && (decide (d.cap.state = .armed) || decide (d.cap.state = .post))
  let d := d.trigger .manual q.src
  match taken, d.cap.current with
  | true, some r => (okBytes (beBytes 1 r.area.val ++ beBytes 2 r.gen.toNat), d)
  | _, _ => (refuse resNotPermitted, d)

/-! ## UNKNOWN_REQUEST (R200) -/

/-- A request of no known code, or an OPERATE of no known target (R200, R211). -/
def Dev.actUnknown (d : Dev) (q : Request) : Response × Dev :=
  (refuse (if q.code = 10 then resNotSelected else resUnknown), d)

end Sys2Proof.Machine
end

