-- ==== Sys2Proof/Machine/Reception.lean ====
section
/-!
DEFINITION. Sys2Proof/Machine/Reception.lean: the reception of a frame (R2, R3), its classification (R6, R7), what is done with
malformed frames and frames addressed to the part (R8, R9), the hand-overs (R10) and the screening of station commands (R12,
R13).
-/
namespace Sys2Proof.Machine

/-! ## Matching an address (R6) -/

/-- The stream that a source address subscribes to: the lowest-numbered enabled entry that carries it. -/
def Tables.streamAt (t : Tables) (a : Nat) : Option (Fin 24) :=
  firstId 24 (fun i => decide ((tget t.streams i).enable = 1 ∧ (tget t.streams i).source = a))

/-- The used breaker of a bay address. -/
def Tables.breakerAt (t : Tables) (a : Nat) : Option (Fin 24) :=
  firstId 24 (fun b => (tget t.breakers b).used && decide ((tget t.breakers b).addr = a))

/-- The generator of a controller address. -/
def Tables.genAt (t : Tables) (a : Nat) : Option (Fin 6) :=
  firstId 6 (fun g => (tget t.gens g).used && decide ((tget t.gens g).addr = a))

/-! ## Hand-overs (R8, R9, R10) -/

/-- A frame for one of the blocks: the sources of tests 3, 4 and 5 of R6. -/
inductive Consumer where
  | stream (i : Fin 24)
  | breaker (b : Fin 24)
  | gen (g : Fin 6)
  deriving DecidableEq, Repr

/-- The block that consumes a frame of a kind and source arriving on P1 (R6, tests 3 to 5). -/
def Tables.consumer (t : Tables) (h : Header) : Option Consumer :=
  match h.kind with
  | 1 => (t.streamAt h.source).map Consumer.stream
  | 2 => (t.breakerAt h.source).map Consumer.breaker
  | 4 => (t.genAt h.source).map Consumer.gen
  | _ => none

/-- A malformed frame is dropped (R8). -/
def Dev.countMalformed (d : Dev) (p : Port) : Dev :=
  d.modCounters p (fun c => { c with rxMalformed := sat32 c.rxMalformed })

/-- A frame addressed to the part is not taken (R9). -/
def Dev.countRefused (d : Dev) (p : Port) : Dev := d.modCounters p (fun c => { c with rxRefused := sat32 c.rxRefused })

/-- A consumed frame is handed to its block whole (R10). -/
def Dev.handOver (d : Dev) (c : Consumer) (b : Body) : Dev :=
  match c, b with
  | .stream i, .sample count qs vs => d.takeSample i count qs vs
  | .breaker k, .status pos spring inLocal => d.takeStatus k pos spring inLocal
  | .gen g, .genset e ready manual => d.takeGenset g e ready manual
  | _, _ => d

/-- A malformed SAMPLE frame of an enabled stream's source is reported to SAU as a missing sample, on either port (R8;
notes/assumptions/19.md). -/
def Dev.missed (d : Dev) (h : Header) (x : Content) : Dev :=
  match d.tab.consumer h, x with
  | some (.stream i), .malformed => d.missingSample i
  | _, _ => d

/-- A frame that tests 3 to 5 of R6 consume; `fwd` says whether it is also placed in FQ12. -/
def Dev.consume (d : Dev) (c : Consumer) (h : Header) (x : Content) (f : EthFrame) (fwd : Bool) : Dev :=
  match x with
  | .body b =>
    let d := (d.handOver c b).flush
    if fwd then d.forward .p1 f else d
  | _ => (d.countMalformed .p1).missed h x

/-- A test 3 to 5 frame is also placed in FQ12: always, but for a stream whose forward flag is clear (R6). -/
def Tables.forwards (t : Tables) : Consumer → Bool
  | .stream i => decide ((tget t.streams i).forward = 1)
  | _ => true

/-- A frame addressed to the part (R9). -/
def Dev.addressed (d : Dev) (p : Port) (h : Header) (x : Content) (f : EthFrame) : Dev :=
  let c := if p = .p1 then d.tab.consumer h else none
  match x, c with
  | .body (.request code tag params), _ =>
    d.takeRequest { port := p, src := h.source, code := code, tag := tag, params := params }
  | .malformed, _ => (d.countMalformed p).missed h x
  | .body _, some k => d.consume k h x f false
  | _, _ => d.countRefused p

/-! ## Screening (R12, R13) -/

/-- Both side buses of a breaker are present and both are LIVE (R13). -/
def Dev.bothLive (d : Dev) (b : Fin 24) : Bool :=
  match (d.breakerCfg b).bus1, (d.breakerCfg b).bus2 with
  | some x, some y => decide ((d.bus x).state = .live ∧ (d.bus y).state = .live)
  | _, _ => false

/-- The reason for which a station CLOSE of a breaker is dropped, if any (R13). -/
def Dev.screenReason (d : Dev) (b : Fin 24) : Option Nat :=
  if (d.breaker b).claim.isSome then some 1
  else if d.locked b then some 2
  else if d.position b = .unknown then some 3
  else if !d.permissive b then some 4
  else if d.bothLive b then some 5
  else none

/-- A station COMMAND frame to a used breaker is screened (R12, R13). -/
def Dev.screen (d : Dev) (b : Fin 24) (x : Content) (f : EthFrame) : Dev :=
  match x with
  | .body (.command id .closeIt) =>
    match d.screenReason b with
    | some r => Dev.screenedNotice { d with lnk := { d.lnk with screened := sat32 d.lnk.screened } } b id r
    | none => d.forward .p2 f
  | .body (.command _ .openIt) => d.forward .p2 f
  | _ => d.countMalformed .p2

/-! ## Classification (R6, R7) and reception (R2, R3) -/

/-- A Bayline frame arriving on P1 (R6). -/
def Dev.classify1 (d : Dev) (h : Header) (x : Content) (f : EthFrame) : Dev :=
  if h.source = d.tab.device.station then d.modCounters .p1 (fun c => { c with rxOwnSource := sat32 c.rxOwnSource })
  else if h.dest = d.tab.device.station then d.addressed .p1 h x f
  else match d.tab.consumer h with
    | some k => d.consume k h x f (d.tab.forwards k)
    | none => d.forward .p1 f

/-- A Bayline frame arriving on P2 (R7). A malformed SAMPLE of a stream's source is reported, and forwarded like any other frame
that is only forwarded (R8). -/
def Dev.classify2 (d : Dev) (h : Header) (x : Content) (f : EthFrame) : Dev :=
  if h.source = d.tab.device.station then d.modCounters .p2 (fun c => { c with rxOwnSource := sat32 c.rxOwnSource })
  else if h.dest = d.tab.device.station then d.addressed .p2 h x f
  else match (if h.kind = 3 then d.tab.breakerAt h.dest else none) with
    | some b => d.screen b x f
    | none => (d.missed h x).forward .p2 f

/-- A Bayline frame with a whole header goes to classification (R3). -/
def Dev.classifyFrame (d : Dev) (p : Port) (f : EthFrame) : Dev :=
  let h := parseHeader f.payload
  let x := content (Config.modulus d.f60) h f.payload
  match p with
  | .p1 => d.classify1 h x f
  | .p2 => d.classify2 h x f

/-- A frame counts in RX_GOOD (R3). -/
def Dev.countGood (d : Dev) (p : Port) : Dev := d.modCounters p (fun c => { c with rxGood := sat32 c.rxGood })

/-- A frame has arrived whole at a port (R2, R3). -/
def Dev.receive (d : Dev) (p : Port) (f : EthFrame) : Dev :=
  if !(d.lnk.port p).up then d
  else if !f.checkOk then d.modCounters p (fun c => { c with rxCheckError := sat32 c.rxCheckError })
  else if f.etherType ≠ Config.baylineType then (d.countGood p).forward p f
  else if f.payload.length < 10 then d.modCounters p (fun c => { c with rxRunt := sat32 c.rxRunt })
  else (d.countGood p).classifyFrame p f

end Sys2Proof.Machine
end

