-- ==== Sys2Proof/Machine/Reset.lean ====
section
/-!
DEFINITION. Sys2Proof/Machine/Reset.lean: the beginning of a reset, the bypass, and the completion of a reset with the taking of
the stored tables into the blocks (R21, R39, R90, R119, R182, R198, R206, R218).
-/
namespace Sys2Proof.Machine

/-- What a port keeps through a reset: its link state and the record of the frame that last left it. -/
def PortRec.kept (r : PortRec) : PortRec := { up := r.up, lastOut := r.lastOut }

/-- The device in reset, or without supply: everything volatile is lost (R21). The count of ties, the model's own field, goes
on. -/
def Dev.blank (d : Dev) : Dev := { lnk := { p1 := d.lnk.p1.kept, p2 := d.lnk.p2.kept }, ties := d.ties }

/-- The part enters a power state in which the ports are joined (R21). -/
def State.lose (s : State) (p : Power) : State := { s with power := p, dev := s.dev.blank }

/-- RESET_N goes low (R21): a reset begins, unless there is no supply. -/
def State.resetNLow (s : State) : State :=
  let s := { s with resetN := false }
  if s.power = .noSupply then s else s.lose .inReset

/-- The reset that a RESTART arranged begins (R212). -/
def State.restart (s : State) : State :=
  if decide (s.power = .running) && s.dev.mgt.restartDue then s.lose .inReset else s

/-- A frame crosses the bypass: it leaves on the other port unchanged (R21). -/
def State.cross (s : State) (p : Port) (f : EthFrame) : State :=
  { s with dev := s.dev.modPort p.other (fun r => { r with lastOut := some f }) }

/-- The nominal frequency at a reset: the override, or the NOMF strap (R206). -/
def frequencyOf (override : Nat) (nomf : Bool) : Bool :=
  if override = 1 then false else if override = 2 then true else nomf

/-- The mode at a reset: the start mode, or SERVICE when a stored table fails (R213). -/
def startModeOf (e : DeviceEntry) (failed : Bool) : Mode := if failed then .service else (modeOf e.startMode).getD .service

/-- CAP after a reset: armed in area 0 when the channel count is at least 1 (R187, R198). -/
def capAtReset (e : CaptureEntry) : Cap := if e.count = 0 then {} else Cap.arm {} 0

/-- The streams after a reset (R39). -/
def sauAtReset (t : Tables) : Sau :=
  { streams := Vector.ofFn (fun i => { state := if (tget t.streams i).enable = 1 then .seeking else .off }) }

/-- The breakers after a reset; an entry that failed its checks is marked (R119). -/
def swmAtReset (t : Tables) : Swm :=
  { breakers := Vector.ofFn (fun b => { failedCfg := !t.breakerOk b }) }

/-- The device as a reset completes, before its errors are recorded (R218). -/
def Dev.booted (old : Dev) (t : Tables) (nomf mgw up1 up2 : Bool) : Dev :=
  let tab := t.repaired
  let failed := !t.failedAreas.isEmpty
  { mode := startModeOf tab.device failed, f60 := frequencyOf tab.device.freq nomf, nomf := nomf, mgw := mgw, tab := tab
    lnk := { p1 := { old.lnk.p1.kept with up := up1 }, p2 := { old.lnk.p2.kept with up := up2 } }
    sau := sauAtReset tab, swm := swmAtReset t, cap := capAtReset tab.capture, mgt := { tableFailed := failed }
    ties := old.ties }

/-- The device as a reset completes: SETTINGS_INVALID is recorded for each failing area (R218). -/
def Dev.boot (old : Dev) (t : Tables) (nomf mgw up1 up2 : Bool) : Dev :=
  forEach t.failedAreas (fun a d => d.recordError .settingsInvalid a) (Dev.booted old t nomf mgw up1 up2)

/-- RESET_N is high, the straps are sampled and the stored tables read (R21). -/
def State.complete (s : State) (nomf mgw up1 up2 : Bool) : State :=
  if s.power = .inReset then
    { s with power := .running, resetN := true, dev := s.dev.boot s.nv nomf mgw up1 up2 }
  else s

/-- What every meaning answers. -/
abbrev Result := Host.Outcome State Fault Refusal

/-- The device acts while it runs; in reset and without supply nothing of it happens (R21). -/
def State.whenRunning (s : State) (f : Dev → Dev) : Result :=
  if s.power = .running then .next { s with dev := f s.dev } else .next s

end Sys2Proof.Machine
end

