-- ==== Sys2Proof/Machine/Clock.lean ====
section
/-!
DEFINITION. Sys2Proof/Machine/Clock.lean: what is due at the device millisecond clock, and the tick that the block takes when no
command waits (DESIGN CHOICE, notes/assumptions/5.md).
-/
namespace Sys2Proof.Machine

/-- The command that serves a row of the request table. -/
def rowCommand (row : Nat × Nat) : Instr :=
  match row with
  | (1, _) => .ident
  | (2, _) => .echo
  | (3, _) => .read
  | (4, _) => .write
  | (5, _) => .watchSet
  | (6, _) => .watchRead
  | (7, _) => .force
  | (8, _) => .forceClearAll
  | (9, _) => .select
  | (10, 0) => .mode
  | (10, 1) => .maintOn
  | (10, 2) => .maintOff
  | (10, 3) => .restart
  | (10, 4) => .breakerOpen
  | (10, 5) => .breakerClose
  | (10, 6) => .lockoutReset
  | (10, 7) => .blockReset
  | (10, 8) => .runScheme
  | (10, 9) => .chgReset
  | (10, 10) => .chgInhibit
  | (10, 11) => .chgRelease
  | (10, 12) => .genReset
  | (11, _) => .cancel
  | (12, _) => .errors
  | (14, _) => .captureRead
  | (15, _) => .captureDelete
  | (16, _) => .captureLock
  | (17, _) => .captureUnlock
  | (18, _) => .captureTrigger
  | _ => .unknownRequest

/-- A command in a list when a condition holds. -/
def dueIf (b : Bool) (c : Instr) : List Instr := if b then [c] else []

/-- The commands of a breaker's timers that are due (R95, R108, R110, R113). -/
def Dev.dueBreaker (d : Dev) (b : Fin 24) : List Instr :=
  let r := d.breaker b
  dueIf (!r.aged && reached (after r.ageFrom Config.statusAgeMs) d.now) (.statusAgeExpiry b)
    ++ dueIf (r.record.any (fun c => reached c.nextRepeat d.now)) (.commandRepeat b)
    ++ dueIf (r.record.any (fun c => c.bfRunning && reached? c.bfEnd d.now)) (.breakerFailureTimerExpiry b)
    ++ dueIf (r.record.any (fun c => reached c.opEnd d.now)) (.operateTimerExpiry b)

/-- A source's timer is due (R124). -/
def Dev.sourceDue (d : Dev) (u : Utility) : Bool :=
  match (d.chg.source u).timer with
  | .running _ e => reached e d.now
  | _ => false

/-- The commands of CHG's timers that are due (R124, R135, R137, R138, R145, R148). -/
def Dev.dueChg (d : Dev) : List Instr :=
  let step := fun (p : Transfer → Bool) => d.running.any p
  dueIf (d.sourceDue .a) (.sourceTimerExpiry .a) ++ dueIf (d.sourceDue .b) (.sourceTimerExpiry .b)
    ++ dueIf (step (fun t => decide (t.phase = .waitingBreaker) && reached? t.waitEnd d.now)) .stepWaitExpiry
    ++ dueIf (step (fun t => decide (t.step.kind = 3) && reached? t.deadline d.now)) .stepSyncTimeout
    ++ dueIf (step (fun t => decide (t.step.kind = 4) && decide (t.phase = .waiting) && reached? t.deadline d.now)) .awaitDeadline
    ++ dueIf (step (fun t => decide (t.step.kind = 5) && reached? t.deadline d.now)) .delayDeadline
    ++ dueIf (d.chg.overlap.any (fun o => reached o.expiry d.now)) .overlapTimerExpiry
    ++ dueIf (decide (d.chg.state = .settling) && (d.settled || reached (after 0 Config.settlingMs) d.now)) .settlingEnd

/-- The commands of a set's timers that are due (R155, R157, R168, R175). -/
def Dev.dueGen (d : Dev) (g : Fin 6) : List Instr :=
  let r := d.gen g
  dueIf (!r.aged && reached (after r.ageFrom Config.controllerAgeMs) d.now) (.controllerAgeExpiry g)
    ++ dueIf (decide (r.state = .starting) && reached? r.timer d.now) (.startTimerExpiry g)
    ++ dueIf (r.state.inSync && reached? r.timer d.now) (.syncTimerExpiry g)
    ++ dueIf (decide (r.state = .cooldown) && reached? r.timer d.now) (.cooldownTimerExpiry g)

/-- The commands of MGT that are due: the selection's expiry, the reset of a RESTART, the serving of a request (R200, R210,
R212). -/
def Dev.dueMgt (d : Dev) : List Instr :=
  dueIf (d.mgt.selection.any (fun s => reached (after s.since Config.selectionMs) d.now)) .selectionTimeout
    ++ dueIf d.mgt.restartDue .restartReset
    ++ (match d.mgt.service, d.mgt.queue with
        | none, q :: _ => [rowCommand q.row]
        | _, _ => [])

/-- The commands that are due at the clock, in the order in which the model takes them (notes/assumptions/5.md). -/
def Dev.due (d : Dev) : List Instr :=
  dueIf (reached? d.sau.silence d.now) .silenceTimeout
    ++ (List.finRange 24).flatMap d.dueBreaker ++ d.dueChg ++ (List.finRange 6).flatMap d.dueGen
    ++ dueIf (d.par.settled && reached d.par.periodDue d.now) .setpointPeriod ++ d.dueMgt

/-- The part with no command waiting (DESIGN CHOICE): while it runs, the commands that are due begin to wait; when none is due,
the clock counts one millisecond and those then due begin to wait. In reset and without supply it idles. -/
def State.tick (s : State) : State :=
  if s.power = .running then
    let d := if s.dev.due = [] then { s.dev with now := s.dev.now + 1 } else s.dev
    { s with pending := d.due, dev := d }
  else s

end Sys2Proof.Machine
end

