-- ==== Sys2Proof/Machine/LinkCommands.lean ====
section
/-!
DEFINITION. Sys2Proof/Machine/LinkCommands.lean: the meanings of the link's commands: FRAME_RECEPTION, LINK_DOWN, LINK_UP, TRANSMISSION_END (Chapter 1).
-/
namespace Sys2Proof.Machine

/-- FRAME_RECEPTION (R2 to R13): while the part runs the frame is received; while the ports are joined it crosses (R21). -/
def execFrameReception (port : Port) (frame : EthFrame) (maintIn : Bool) (s : State) : Result :=
  if s.power = .running then
    .next { s with dev := Dev.receive { s.dev with prot := { s.dev.prot with maintPin := maintIn } } port frame }
  else .next (s.cross port frame)

/-- LINK_DOWN (R2). -/
def execLinkDown (port : Port) (s : State) : Result :=
  s.whenRunning (fun d => d.linkDown port)

/-- LINK_UP (R2). -/
def execLinkUp (port : Port) (s : State) : Result :=
  s.whenRunning (fun d => d.linkUp port)

/-- TRANSMISSION_END (R17, R18, R20). -/
def execTransmissionEnd (port : Port) (s : State) : Result :=
  s.whenRunning (fun d => d.transmissionEnd port)

end Sys2Proof.Machine
end

