-- ==== Sys2Proof/Machine/ResetCommands.lean ====
section
/-!
DEFINITION. Sys2Proof/Machine/ResetCommands.lean: the meanings of the commands of reset and bypass (R21, R212).
-/
namespace Sys2Proof.Machine

/-- POWER_UP (R21): a reset begins. -/
def execPowerUp (s : State) : Result :=
  .next (s.lose .inReset)

/-- RESET_N_LOW (R21). -/
def execResetNLow (s : State) : Result :=
  .next s.resetNLow

/-- RESET_COMPLETE (R21, R218). -/
def execResetComplete (nomf mgw up1 up2 : Bool) (s : State) : Result :=
  .next (s.complete nomf mgw up1 up2)

/-- BYPASS_FRAME (R21): while the ports are joined the frame leaves on the other port; while the part runs there is no bypass. -/
def execBypassFrame (port : Port) (frame : EthFrame) (s : State) : Result :=
  if s.power = .running then .next s else .next (s.cross port frame)

/-- AUX_SUPPLY_LOSS (R21): the bypass relay joins the ports and everything volatile is lost. -/
def execAuxSupplyLoss (s : State) : Result :=
  .next (s.lose .noSupply)

/-- RESTART_RESET (R212). -/
def execRestartReset (s : State) : Result :=
  .next s.restart

end Sys2Proof.Machine
end

