-- ==== Sys2Proof/Machine/TimerCommands.lean ====
section
/-!
DEFINITION. Sys2Proof/Machine/TimerCommands.lean: the meanings of the expiries: of timers, ages, deadlines and periods. An expiry whose timer does not run, or has not reached its end, does not happen.
-/
namespace Sys2Proof.Machine

/-- SILENCE_TIMEOUT (R32). -/
def execSilenceTimeout (s : State) : Result :=
  s.whenRunning (fun d => d.expireSilence)

/-- STATUS_AGE_EXPIRY (R95). -/
def execStatusAgeExpiry (b : Fin 24) (s : State) : Result :=
  s.whenRunning (fun d => (d.expireStatusAge b).flush)

/-- COMMAND_REPEAT (R108). -/
def execCommandRepeat (b : Fin 24) (s : State) : Result :=
  s.whenRunning (fun d => d.commandRepeat b)

/-- OPERATE_TIMER_EXPIRY (R110). -/
def execOperateTimerExpiry (b : Fin 24) (s : State) : Result :=
  s.whenRunning (fun d => (d.expireOperate b).flush)

/-- BREAKER_FAILURE_TIMER_EXPIRY (R113). -/
def execBreakerFailureTimerExpiry (b : Fin 24) (s : State) : Result :=
  s.whenRunning (fun d => (d.expireBreakerFailure b).flush)

/-- SOURCE_TIMER_EXPIRY (R124). -/
def execSourceTimerExpiry (u : Utility) (s : State) : Result :=
  s.whenRunning (fun d => (d.expireSourceTimer u).flush)

/-- STEP_WAIT_EXPIRY (R135). -/
def execStepWaitExpiry (s : State) : Result :=
  s.whenRunning (fun d => d.expireStepWait.flush)

/-- STEP_SYNC_TIMEOUT (R137). -/
def execStepSyncTimeout (s : State) : Result :=
  s.whenRunning (fun d => d.expireStepSync.flush)

/-- AWAIT_DEADLINE (R138). -/
def execAwaitDeadline (s : State) : Result :=
  s.whenRunning (fun d => d.expireAwait.flush)

/-- DELAY_DEADLINE (R138). -/
def execDelayDeadline (s : State) : Result :=
  s.whenRunning (fun d => d.expireDelay.flush)

/-- OVERLAP_TIMER_EXPIRY (R145). -/
def execOverlapTimerExpiry (s : State) : Result :=
  s.whenRunning (fun d => d.expireOverlap.flush)

/-- SETTLING_END (R148). -/
def execSettlingEnd (s : State) : Result :=
  s.whenRunning (fun d => d.endSettling.flush)

/-- CONTROLLER_AGE_EXPIRY (R155). -/
def execControllerAgeExpiry (g : Fin 6) (s : State) : Result :=
  s.whenRunning (fun d => (d.expireControllerAge g).flush)

/-- START_TIMER_EXPIRY (R157). -/
def execStartTimerExpiry (g : Fin 6) (s : State) : Result :=
  s.whenRunning (fun d => (d.expireStart g).flush)

/-- SYNC_TIMER_EXPIRY (R168). -/
def execSyncTimerExpiry (g : Fin 6) (s : State) : Result :=
  s.whenRunning (fun d => (d.expireSync g).flush)

/-- COOLDOWN_TIMER_EXPIRY (R175). -/
def execCooldownTimerExpiry (g : Fin 6) (s : State) : Result :=
  s.whenRunning (fun d => (d.expireCooldown g).flush)

/-- SETPOINT_PERIOD (R176). -/
def execSetpointPeriod (s : State) : Result :=
  s.whenRunning (fun d => d.setpointPeriod.flush)

/-- SELECTION_TIMEOUT (R210). -/
def execSelectionTimeout (s : State) : Result :=
  s.whenRunning (fun d => d.expireSelection)

end Sys2Proof.Machine
end

