-- ==== Sys2Proof/Machine/StoreCommands.lean ====
section
/-!
DEFINITION. Sys2Proof/Machine/StoreCommands.lean: the meanings of the ends of store writes (R205).
-/
namespace Sys2Proof.Machine

/-- STATE_STORE_COMPLETE (R205): the oldest state store write ends. -/
def execStateStoreComplete (ok : Bool) (s : State) : Result :=
  if s.power = .running then .next (s.completeJob ok) else .next s

/-- DEVICE_WRITE_COMPLETE (R206, R205). -/
def execDeviceWriteComplete (ok : Bool) (s : State) : Result :=
  if s.power = .running then .next (s.completeWrite 2 ok) else .next s

/-- STREAMS_WRITE_COMPLETE (R24, R205). -/
def execStreamsWriteComplete (ok : Bool) (s : State) : Result :=
  if s.power = .running then .next (s.completeWrite 3 ok) else .next s

/-- QUANTITIES_WRITE_COMPLETE (R42, R205). -/
def execQuantitiesWriteComplete (ok : Bool) (s : State) : Result :=
  if s.power = .running then .next (s.completeWrite 4 ok) else .next s

/-- GROUPS_WRITE_COMPLETE (R49, R205). -/
def execGroupsWriteComplete (ok : Bool) (s : State) : Result :=
  if s.power = .running then .next (s.completeWrite 5 ok) else .next s

/-- ELEMENTS_WRITE_COMPLETE (R64, R205). -/
def execElementsWriteComplete (ok : Bool) (s : State) : Result :=
  if s.power = .running then .next (s.completeWrite 6 ok) else .next s

/-- CURVES_WRITE_COMPLETE (R74, R205). -/
def execCurvesWriteComplete (ok : Bool) (s : State) : Result :=
  if s.power = .running then .next (s.completeWrite 7 ok) else .next s

/-- ZONES_WRITE_COMPLETE (R78, R205). -/
def execZonesWriteComplete (ok : Bool) (s : State) : Result :=
  if s.power = .running then .next (s.completeWrite 8 ok) else .next s

/-- BREAKERS_WRITE_COMPLETE (R92, R205). -/
def execBreakersWriteComplete (ok : Bool) (s : State) : Result :=
  if s.power = .running then .next (s.completeWrite 9 ok) else .next s

/-- BUSES_WRITE_COMPLETE (R98, R205). -/
def execBusesWriteComplete (ok : Bool) (s : State) : Result :=
  if s.power = .running then .next (s.completeWrite 10 ok) else .next s

/-- SOURCES_WRITE_COMPLETE (R120, R205). -/
def execSourcesWriteComplete (ok : Bool) (s : State) : Result :=
  if s.power = .running then .next (s.completeWrite 11 ok) else .next s

/-- CAUSES_WRITE_COMPLETE (R127, R205). -/
def execCausesWriteComplete (ok : Bool) (s : State) : Result :=
  if s.power = .running then .next (s.completeWrite 12 ok) else .next s

/-- SCHEMES_WRITE_COMPLETE (R129, R205). -/
def execSchemesWriteComplete (ok : Bool) (s : State) : Result :=
  if s.power = .running then .next (s.completeWrite 13 ok) else .next s

/-- GENERATORS_WRITE_COMPLETE (R153, R205). -/
def execGeneratorsWriteComplete (ok : Bool) (s : State) : Result :=
  if s.power = .running then .next (s.completeWrite 14 ok) else .next s

/-- CAPTURE_CONFIG_WRITE_COMPLETE (R185, R205). -/
def execCaptureConfigWriteComplete (ok : Bool) (s : State) : Result :=
  if s.power = .running then .next (s.completeWrite 15 ok) else .next s

/-- SETTINGS_LOCK_WRITE_COMPLETE (R207, R205). -/
def execSettingsLockWriteComplete (ok : Bool) (s : State) : Result :=
  if s.power = .running then .next (s.completeWrite 20 ok) else .next s

end Sys2Proof.Machine
end

