-- ==== Sys2Proof/Machine/RequestCommands.lean ====
section
/-!
DEFINITION. Sys2Proof/Machine/RequestCommands.lean: the meanings of the management requests that are not OPERATEs: each serves the request at the head of the queue when none is in service and the head is of its row (R200).
-/
namespace Sys2Proof.Machine

/-- IDENT (R217). -/
def execIdent (s : State) : Result :=
  s.whenRunning (fun d => d.serveRow (1, 0) Dev.actIdent)

/-- ECHO (R217). -/
def execEcho (s : State) : Result :=
  s.whenRunning (fun d => d.serveRow (2, 0) Dev.actEcho)

/-- READ (R203). -/
def execRead (s : State) : Result :=
  s.whenRunning (fun d => d.serveRow (3, 0) Dev.actRead)

/-- WRITE (R204). -/
def execWrite (s : State) : Result :=
  s.whenRunning (fun d => d.serveWrite)

/-- WATCH_SET (R208). -/
def execWatchSet (s : State) : Result :=
  s.whenRunning (fun d => d.serveRow (5, 0) Dev.actWatchSet)

/-- WATCH_READ (R208). -/
def execWatchRead (s : State) : Result :=
  s.whenRunning (fun d => d.serveRow (6, 0) Dev.actWatchRead)

/-- FORCE (R209). -/
def execForce (s : State) : Result :=
  s.whenRunning (fun d => d.serveRow (7, 0) Dev.actForce)

/-- FORCE_CLEAR_ALL (R209). -/
def execForceClearAll (s : State) : Result :=
  s.whenRunning (fun d => d.serveRow (8, 0) Dev.actForceClear)

/-- SELECT (R210). -/
def execSelect (s : State) : Result :=
  s.whenRunning (fun d => d.serveRow (9, 0) Dev.actSelect)

/-- CANCEL (R210). -/
def execCancel (s : State) : Result :=
  s.whenRunning (fun d => d.serveRow (11, 0) Dev.actCancel)

/-- ERRORS (R215). -/
def execErrors (s : State) : Result :=
  s.whenRunning (fun d => d.serveRow (12, 0) Dev.actErrors)

/-- CAPTURE_READ (R194). -/
def execCaptureRead (s : State) : Result :=
  s.whenRunning (fun d => d.serveRow (14, 0) Dev.actCaptureRead)

/-- CAPTURE_DELETE (R195). -/
def execCaptureDelete (s : State) : Result :=
  s.whenRunning (fun d => d.serveRow (15, 0) Dev.actCaptureDelete)

/-- CAPTURE_LOCK (R196). -/
def execCaptureLock (s : State) : Result :=
  s.whenRunning (fun d => d.serveRow (16, 0) (fun d q => d.actCaptureLock q true))

/-- CAPTURE_UNLOCK (R196). -/
def execCaptureUnlock (s : State) : Result :=
  s.whenRunning (fun d => d.serveRow (17, 0) (fun d q => d.actCaptureLock q false))

/-- CAPTURE_TRIGGER (R197). -/
def execCaptureTrigger (s : State) : Result :=
  s.whenRunning (fun d => d.serveRow (18, 0) Dev.actCaptureTrigger)

/-- UNKNOWN_REQUEST (R200). -/
def execUnknownRequest (s : State) : Result :=
  s.whenRunning (fun d => d.serveRow (0, 0) Dev.actUnknown)

end Sys2Proof.Machine
end

