-- ==== Sys2Proof/Machine/OperateCommands.lean ====
section
/-!
DEFINITION. Sys2Proof/Machine/OperateCommands.lean: the meanings of the operate targets (R210 to R212): each serves an OPERATE of its target at the head of the queue.
-/
namespace Sys2Proof.Machine

/-- OPERATE MODE (R212). -/
def execMode (s : State) : Result :=
  s.whenRunning (fun d => d.serveOperate 0 Dev.opMode)

/-- OPERATE MAINT_ON (R81, R212). -/
def execMaintOn (s : State) : Result :=
  s.whenRunning (fun d => d.serveOperate 1 (fun d x => d.opMaint x true))

/-- OPERATE MAINT_OFF (R81, R212). -/
def execMaintOff (s : State) : Result :=
  s.whenRunning (fun d => d.serveOperate 2 (fun d x => d.opMaint x false))

/-- OPERATE RESTART (R212). -/
def execRestart (s : State) : Result :=
  s.whenRunning (fun d => d.serveOperate 3 Dev.opRestart)

/-- OPERATE BREAKER_OPEN (R115). -/
def execBreakerOpen (s : State) : Result :=
  s.whenRunning (fun d => d.serveOperate 4 (fun d x => d.opBreaker x .openIt))

/-- OPERATE BREAKER_CLOSE (R115). -/
def execBreakerClose (s : State) : Result :=
  s.whenRunning (fun d => d.serveOperate 5 (fun d x => d.opBreaker x .closeIt))

/-- OPERATE LOCKOUT_RESET (R116). -/
def execLockoutReset (s : State) : Result :=
  s.whenRunning (fun d => d.serveOperate 6 Dev.opLockoutReset)

/-- OPERATE BLOCK_RESET (R117). -/
def execBlockReset (s : State) : Result :=
  s.whenRunning (fun d => d.serveOperate 7 Dev.opBlockReset)

/-- OPERATE RUN_SCHEME (R146). -/
def execRunScheme (s : State) : Result :=
  s.whenRunning (fun d => d.serveOperate 8 Dev.opRun)

/-- OPERATE CHG_RESET (R146). -/
def execChgReset (s : State) : Result :=
  s.whenRunning (fun d => d.serveOperate 9 (fun d x => opChg d x Dev.opChgReset))

/-- OPERATE CHG_INHIBIT (R147). -/
def execChgInhibit (s : State) : Result :=
  s.whenRunning (fun d => d.serveOperate 10 (fun d x => opChg d x Dev.opInhibit))

/-- OPERATE CHG_RELEASE (R147). -/
def execChgRelease (s : State) : Result :=
  s.whenRunning (fun d => d.serveOperate 11 (fun d x => opChg d x Dev.opRelease))

/-- OPERATE GEN_RESET (R179). -/
def execGenReset (s : State) : Result :=
  s.whenRunning (fun d => d.serveOperate 12 Dev.opGenReset)

end Sys2Proof.Machine
end

