-- ==== Sys2Proof/Machine/Dispatch.lean ====
section
/-!
DEFINITION. Sys2Proof/Machine/Dispatch.lean: the meaning of each command, one arm each.
-/
namespace Sys2Proof.Machine

/-- The effect of a command on everything but the queue. -/
def exec (i : Instr) (s : State) : Host.Outcome State Fault Refusal :=
  match i with
  | .frameReception port frame maintIn => Sys2Proof.Machine.execFrameReception port frame maintIn s
  | .linkDown port => Sys2Proof.Machine.execLinkDown port s
  | .linkUp port => Sys2Proof.Machine.execLinkUp port s
  | .transmissionEnd port => Sys2Proof.Machine.execTransmissionEnd port s
  | .powerUp => Sys2Proof.Machine.execPowerUp s
  | .resetNLow => Sys2Proof.Machine.execResetNLow s
  | .resetComplete nomf mgw up1 up2 => Sys2Proof.Machine.execResetComplete nomf mgw up1 up2 s
  | .bypassFrame port frame => Sys2Proof.Machine.execBypassFrame port frame s
  | .auxSupplyLoss => Sys2Proof.Machine.execAuxSupplyLoss s
  | .restartReset => Sys2Proof.Machine.execRestartReset s
  | .silenceTimeout => Sys2Proof.Machine.execSilenceTimeout s
  | .statusAgeExpiry b => Sys2Proof.Machine.execStatusAgeExpiry b s
  | .commandRepeat b => Sys2Proof.Machine.execCommandRepeat b s
  | .operateTimerExpiry b => Sys2Proof.Machine.execOperateTimerExpiry b s
  | .breakerFailureTimerExpiry b => Sys2Proof.Machine.execBreakerFailureTimerExpiry b s
  | .stateStoreComplete ok => Sys2Proof.Machine.execStateStoreComplete ok s
  | .sourceTimerExpiry u => Sys2Proof.Machine.execSourceTimerExpiry u s
  | .stepWaitExpiry => Sys2Proof.Machine.execStepWaitExpiry s
  | .stepSyncTimeout => Sys2Proof.Machine.execStepSyncTimeout s
  | .awaitDeadline => Sys2Proof.Machine.execAwaitDeadline s
  | .delayDeadline => Sys2Proof.Machine.execDelayDeadline s
  | .overlapTimerExpiry => Sys2Proof.Machine.execOverlapTimerExpiry s
  | .settlingEnd => Sys2Proof.Machine.execSettlingEnd s
  | .controllerAgeExpiry g => Sys2Proof.Machine.execControllerAgeExpiry g s
  | .startTimerExpiry g => Sys2Proof.Machine.execStartTimerExpiry g s
  | .syncTimerExpiry g => Sys2Proof.Machine.execSyncTimerExpiry g s
  | .cooldownTimerExpiry g => Sys2Proof.Machine.execCooldownTimerExpiry g s
  | .setpointPeriod => Sys2Proof.Machine.execSetpointPeriod s
  | .selectionTimeout => Sys2Proof.Machine.execSelectionTimeout s
  | .ident => Sys2Proof.Machine.execIdent s
  | .echo => Sys2Proof.Machine.execEcho s
  | .read => Sys2Proof.Machine.execRead s
  | .write => Sys2Proof.Machine.execWrite s
  | .deviceWriteComplete ok => Sys2Proof.Machine.execDeviceWriteComplete ok s
  | .streamsWriteComplete ok => Sys2Proof.Machine.execStreamsWriteComplete ok s
  | .quantitiesWriteComplete ok => Sys2Proof.Machine.execQuantitiesWriteComplete ok s
  | .groupsWriteComplete ok => Sys2Proof.Machine.execGroupsWriteComplete ok s
  | .elementsWriteComplete ok => Sys2Proof.Machine.execElementsWriteComplete ok s
  | .curvesWriteComplete ok => Sys2Proof.Machine.execCurvesWriteComplete ok s
  | .zonesWriteComplete ok => Sys2Proof.Machine.execZonesWriteComplete ok s
  | .breakersWriteComplete ok => Sys2Proof.Machine.execBreakersWriteComplete ok s
  | .busesWriteComplete ok => Sys2Proof.Machine.execBusesWriteComplete ok s
  | .sourcesWriteComplete ok => Sys2Proof.Machine.execSourcesWriteComplete ok s
  | .causesWriteComplete ok => Sys2Proof.Machine.execCausesWriteComplete ok s
  | .schemesWriteComplete ok => Sys2Proof.Machine.execSchemesWriteComplete ok s
  | .generatorsWriteComplete ok => Sys2Proof.Machine.execGeneratorsWriteComplete ok s
  | .captureConfigWriteComplete ok => Sys2Proof.Machine.execCaptureConfigWriteComplete ok s
  | .settingsLockWriteComplete ok => Sys2Proof.Machine.execSettingsLockWriteComplete ok s
  | .watchSet => Sys2Proof.Machine.execWatchSet s
  | .watchRead => Sys2Proof.Machine.execWatchRead s
  | .force => Sys2Proof.Machine.execForce s
  | .forceClearAll => Sys2Proof.Machine.execForceClearAll s
  | .select => Sys2Proof.Machine.execSelect s
  | .cancel => Sys2Proof.Machine.execCancel s
  | .mode => Sys2Proof.Machine.execMode s
  | .maintOn => Sys2Proof.Machine.execMaintOn s
  | .maintOff => Sys2Proof.Machine.execMaintOff s
  | .restart => Sys2Proof.Machine.execRestart s
  | .breakerOpen => Sys2Proof.Machine.execBreakerOpen s
  | .breakerClose => Sys2Proof.Machine.execBreakerClose s
  | .lockoutReset => Sys2Proof.Machine.execLockoutReset s
  | .blockReset => Sys2Proof.Machine.execBlockReset s
  | .runScheme => Sys2Proof.Machine.execRunScheme s
  | .chgReset => Sys2Proof.Machine.execChgReset s
  | .chgInhibit => Sys2Proof.Machine.execChgInhibit s
  | .chgRelease => Sys2Proof.Machine.execChgRelease s
  | .genReset => Sys2Proof.Machine.execGenReset s
  | .errors => Sys2Proof.Machine.execErrors s
  | .captureRead => Sys2Proof.Machine.execCaptureRead s
  | .captureDelete => Sys2Proof.Machine.execCaptureDelete s
  | .captureLock => Sys2Proof.Machine.execCaptureLock s
  | .captureUnlock => Sys2Proof.Machine.execCaptureUnlock s
  | .captureTrigger => Sys2Proof.Machine.execCaptureTrigger s
  | .unknownRequest => Sys2Proof.Machine.execUnknownRequest s

end Sys2Proof.Machine
end

