-- ==== Sys2Proof/Safety.lean ====
section
/-!
DEFINITION. Sys2Proof/Safety.lean: what counts as a sound state, in the terms the claims use, and the hypotheses that claims about
management requests share.
-/
namespace Sys2Proof.Machine

/-! ## Sound states -/

/-- In reset and without supply nothing volatile is kept: only each port's link state, and the model's own record of its last
frame and count of ties (R21). -/
def State.blankWhileJoined (s : State) : Prop := s.power ≠ .running → s.dev = s.dev.blank

/-- The biases and the load target of a set are in their ranges (R154). -/
def GenRec.inRange (r : GenRec) : Prop :=
  -500 ≤ r.speed ∧ r.speed ≤ 500 ∧ -1000 ≤ r.volt ∧ r.volt ≤ 1000 ∧ 0 ≤ r.load

/-- The capture unit is sound: its memory is canonical, no two records share an area, the area it is armed in holds no record,
and a record is being made exactly in POST (R187, R189, R191, R192). -/
structure Cap.sound (c : Cap) : Prop where
  memory    : Memory.wf c.mem
  areas     : (c.records.map CapRecord.area).Nodup
  armed     : c.state = .armed → c.free c.area
  recording : (c.records.filter CapRecord.recording).length = bit (decide (c.state = .post))

/-- The link unit's queues hold no more than they can (R11, R14, R15). -/
structure Lnk.sound (l : Lnk) : Prop where
  fq12      : l.fq12.length ≤ Config.forwardCapacity
  fq21      : l.fq21.length ≤ Config.forwardCapacity
  commands  : ((l.protQueue ++ l.ctrlQueue).map Prod.fst).Nodup
  setpoints : (l.setpoints.map Prod.fst).Nodup

/-- The lists of the management responder hold no more than they can, and the error list no two entries of one error (R199,
R208, R214, R216). -/
structure Mgt.sound (m : Mgt) : Prop where
  queue   : m.queue.length ≤ Config.requestCapacity
  watch   : m.watch.length ≤ 64
  errors  : m.errors.length ≤ Config.errorCapacity
  keys    : (m.errors.map (fun e => (e.code, e.subject))).Nodup
  notices : m.notices.length ≤ Config.noticeCapacity

/-- A protection record of a breaker is that of an OPEN (R107, R111). -/
def BreakerRec.protOpens (r : BreakerRec) : Prop := ∀ c, r.record = some c → c.prot = true → c.action = .openIt

/-- The device is sound. -/
structure Dev.sound (d : Dev) : Prop where
  lnk  : d.lnk.sound
  mgt  : d.mgt.sound
  cap  : d.cap.sound
  gens : ∀ g, (d.gen g).inRange
  swm  : ∀ b, (d.breaker b).protOpens

/-! ## Requests being served -/

/-- The part runs, no request is in service, and a request of a row with parameters long enough stands at the head of MGT's
queue (R200, R201); nothing reported waits to be taken. -/
structure State.serves (s : State) (q : Request) (rest : List Request) (row : Nat × Nat) : Prop where
  running : s.power = .running
  free    : s.dev.mgt.service = none
  head    : s.dev.mgt.queue = q :: rest
  row     : q.row = row
  long    : fixedLength q.code ≤ q.params.length
  quiet   : s.dev.work = []

/-- A request to OPERATE a target on an object is being served, and the selection matches it (R211). -/
structure State.operates (s : State) (q : Request) (rest : List Request) (target object : Nat) : Prop where
  serves   : s.serves q rest (10, target)
  names    : q.object = object
  selected : ∃ since, s.dev.mgt.selection = some { owner := q.src, target := target, object := object, since := since }

/-- The device with the request at the head of the queue taken into service; its originator's selection has ended, unless the
request is a SELECT (R200, R210). -/
def Dev.taking (d : Dev) (q : Request) (rest : List Request) : Dev :=
  Dev.serviceSelection (d.modMgt (fun m => { m with queue := rest, service := some ⟨q, .acting⟩ })) q

/-- A request that is answered with a result and no data, the device otherwise being `d`. -/
def Dev.answer (d : Dev) (q : Request) (result : Nat) : Dev := d.respond q { result := result }

/-- A request that is answered OK with data, the device otherwise being `d`. -/
def Dev.answerData (d : Dev) (q : Request) (bytes : List Byte) : Dev := d.respond q { result := 0, items := [.bytes bytes] }

/-- The state with a device in place of its own. -/
def State.withDev (s : State) (d : Dev) : State := { s with dev := d }

/-- The device without LNK and MGT: what neither a transmission nor a response touches. -/
def Dev.bare (d : Dev) : Dev := { d with lnk := {}, mgt := {} }

/-- The device without LNK, MGT, the reports and what SWM keeps of breakers and of store writes: what no request to SWM
touches. -/
def Dev.shell (d : Dev) : Dev := { d with lnk := {}, mgt := {}, swm := { buses := d.swm.buses }, work := [] }

/-- A scalar's value fits its width (spec/00_scope.md, Addresses and byte order). -/
def Scalar.fits (x : Scalar) : Prop :=
  if x.signed then -(2 : Int) ^ (8 * x.width - 1) ≤ x.value ∧ x.value < (2 : Int) ^ (8 * x.width - 1)
  else 0 ≤ x.value ∧ x.value < (2 : Int) ^ (8 * x.width)

/-! ## Breakers -/

/-- A close permissive term stands, by its condition and the breaker or bus it names (R105). -/
def Dev.termStands (d : Dev) (t : PermTerm) : Prop :=
  (∃ x : Fin 24, t.id = x.val ∧ ((t.cond = 0 ∧ d.position x = .openPos) ∨ (t.cond = 1 ∧ d.position x = .closed))) ∨
  (∃ y : Fin 6, t.id = y.val ∧ ((t.cond = 2 ∧ (d.bus y).state = .dead) ∨ (t.cond = 3 ∧ (d.bus y).state = .live)))

/-- What stands against a station CLOSE of a breaker, by its reason code (R13). -/
def Dev.screenedFor (d : Dev) (b : Fin 24) : Nat → Prop
  | 1 => (d.breaker b).claim.isSome = true
  | 2 => (d.breakerCfg b).lockout ≠ 0
  | 3 => (d.breaker b).forced = .none ∧ (d.breaker b).reported = .unknown
  | 4 => (d.breaker b).failedCfg = true ∨ ∃ t ∈ (d.breakerCfg b).perms.toList.take (d.breakerCfg b).permCount, ¬ d.termStands t
  | 5 => ∃ x y, (d.breakerCfg b).bus1 = some x ∧ (d.breakerCfg b).bus2 = some y ∧ (d.bus x).state = .live ∧ (d.bus y).state = .live
  | _ => False

/-- Nothing waits for a breaker to become free: no release asked for, no step of a scheme, no set (R103, R135, R157). -/
structure Dev.unawaited (d : Dev) (b : Fin 24) : Prop where
  release : (d.breaker b).releasePending = false
  step    : ∀ t, d.running = some t → t.phase = .waitingBreaker → t.step.breaker ≠ some b
  set     : ∀ g, d.genOfBreaker b = some g → (d.gen g).wantClaim = false

/-- SWM accepts an OPEN that PAR asks for (R102, R104). -/
structure Dev.takesOpen (d : Dev) (b : Fin 24) : Prop where
  used   : (d.breakerCfg b).used = true
  gen    : (d.breakerCfg b).isGen = true
  mode   : d.mode ≠ .service
  claim  : (d.breaker b).claim = none ∨ (d.breaker b).claim = some .par
  record : (d.breaker b).record = none

/-- SWM accepts a CLOSE that PAR asks for, as far as its classification lets it (R102, R104, R105). -/
structure Dev.takesClose (d : Dev) (b : Fin 24) : Prop extends Dev.takesOpen d b where
  free       : (d.breakerCfg b).lockout = 0
  remote     : (d.breaker b).inLocal = false
  spring     : (d.breaker b).spring = true
  isOpen     : d.position b = .openPos
  permitted  : d.permissive b = true
  unblocked  : d.sideBlocked b = false

/-- A CLOSE that PAR asked for has been accepted for a set's breaker, the device having been `d`: the set is CLOSING with the
record's command id, PAR holds the claim, the breaker has the record that R107 states, CAP has been triggered for the set, and no
other set or breaker has changed (R102, R107, R162, R166). -/
structure Dev.closedBy (x : Dev) (g : Fin 6) (b : Fin 24) (d : Dev) : Prop where
  set      : x.gen g = { d.gen g with state := .closing, timer := none, cmdId := some (d.breaker b).nextId }
  sets     : ∀ k, k ≠ g → x.gen k = d.gen k
  breaker  : x.breaker b = { d.breaker b with
    claim := some .par, releasePending := false, nextId := (d.breaker b).nextId + 1
    record := some { id := (d.breaker b).nextId, action := .closeIt, prot := false, requester := .block .par, issue := d.now
                     repeatNo := 0, nextRepeat := after d.now 2, opEnd := after d.now (d.breakerCfg b).timeout
                     bfEnd := none, bfOperated := false, tellChg := false } }
  breakers : ∀ k, k ≠ b → x.breaker k = d.breaker k
  capture  : x.cap = d.cap.trigger d.tab.capture .gen g.val d.sau.inst d.now

/-! ## Protection elements -/

/-- The phase currents of an element's group. -/
def Dev.elementCurrents (d : Dev) (c : ElementEntry) : Option (Fin 96 × Fin 96 × Fin 96) :=
  c.group.bind (fun g => (d.groupCfg g).currents)

/-- The phase voltages of an element's group. -/
def Dev.elementVoltages (d : Dev) (c : ElementEntry) : Option (Fin 96 × Fin 96 × Fin 96) :=
  c.group.bind (fun g => (d.groupCfg g).voltages)

/-- Three quantities are present and valid, each GOOD or HELD. -/
def Dev.threeValid (d : Dev) (r : Option (Fin 96 × Fin 96 × Fin 96)) : Prop :=
  ∃ x, r = some x ∧ ∀ q ∈ [x.1, x.2.1, x.2.2], (d.quantity q).quality.valid = true

/-- A zone entry keeps to R78: at most ten members, each with its ids and flags in range, a breaker where it is switched and a group
that has phase currents, and no group named twice. -/
structure Dev.zoneKeeps (d : Dev) (z : ZoneEntry) : Prop where
  count    : z.count ≤ 10
  breaker  : ∀ i : Fin 10, i.val < z.count → (tget z.members i).breaker ≤ 23 ∨ (tget z.members i).breaker = 255
  flags    : ∀ i : Fin 10, i.val < z.count → (tget z.members i).polarity ≤ 1 ∧ (tget z.members i).switched ≤ 1
  switched : ∀ i : Fin 10, i.val < z.count → (tget z.members i).switched = 1 → (tget z.members i).breaker ≠ 255
  currents : ∀ i : Fin 10, i.val < z.count → (d.memberCurrents (tget z.members i)).isSome = true
  groups   : ∀ i j : Fin 10, i.val < z.count → j.val < z.count → (tget z.members i).group = (tget z.members j).group → i = j

/-- The inputs that an element's kind requires are present and valid (R67, R79); a zone that fails the checks of R78 blocks (R90). -/
def Dev.inputsHold (d : Dev) (c : ElementEntry) : Prop :=
  match c.kind with
  | 0 | 1 => d.threeValid (d.elementCurrents c)
  | 2 => ∃ g, c.group = some g ∧ (d.group g).residQ.valid = true
  | 3 => d.zoneKeeps (d.elementZone c) ∧ (d.elementZone c).count ≠ 0 ∧ ∀ i : Fin 10, i.val < (d.elementZone c).count →
      let m := tget (d.elementZone c).members i
      (m.switched ≠ 0 → ∃ b, toId 24 m.breaker = some b ∧ d.position b ≠ .unknown ∧ d.position b ≠ .defect) ∧
      (m.switched = 0 ∨ (∀ b, toId 24 m.breaker = some b → d.position b ≠ .openPos) → d.threeValid (d.memberCurrents m))
  | 4 | 5 => d.threeValid (d.elementVoltages c)
  | 6 | 7 => ∃ g, c.group = some g ∧ (d.group g).dfQ.valid = true
  | 8 => ∃ g, c.group = some g ∧ (d.group g).powerQ.valid = true
  | _ => False

/-- The maintenance pickup of an element is in force (R81). -/
def Dev.maintenance (d : Dev) (c : ElementEntry) : Prop :=
  (d.prot.maintIn = true ∨ d.prot.maintFlag = true) ∧ (c.kind = 1 ∨ c.kind = 2) ∧ c.maintPickup ≠ 0

/-- A DIFF element's zone passes in some phase: the differential current reaches the pickup, and the slope's part of the restraint
current (R80). -/
def Dev.zonePasses (d : Dev) (c : ElementEntry) : Prop :=
  let z := d.elementZone c
  ∃ sel ∈ [fun (r : Fin 96 × Fin 96 × Fin 96) => r.1, fun r => r.2.1, fun r => r.2.2],
    let x := d.phaseDiff z (d.includedSlots z) sel
    c.pickup.toNat ≤ x.1 ∧ c.slope * x.2 ≤ 100 * x.1

/-- The pickup test of an element's kind holds, its pickup in force being `p` (R70 to R73, R80). -/
def Dev.picksUp (d : Dev) (c : ElementEntry) (p : Nat) : Prop :=
  match c.kind with
  | 0 | 1 => ∃ x, d.elementCurrents c = some x ∧ ∃ q ∈ [x.1, x.2.1, x.2.2], 2 * (p * p) ≤ (d.quantity q).m2
  | 2 => ∃ g, c.group = some g ∧ 2 * (p * p) ≤ (d.group g).residM2
  | 3 => d.zonePasses c
  | 4 => ∃ x, d.elementVoltages c = some x ∧
      if c.phaseMode = 1 then ∀ q ∈ [x.1, x.2.1, x.2.2], (d.quantity q).m2 < 2 * (p * p)
      else ∃ q ∈ [x.1, x.2.1, x.2.2], (d.quantity q).m2 < 2 * (p * p)
  | 5 => ∃ x, d.elementVoltages c = some x ∧ ∃ q ∈ [x.1, x.2.1, x.2.2], 2 * (p * p) < (d.quantity q).m2
  | 6 => ∃ g, c.group = some g ∧ (d.group g).df ≤ c.pickup
  | 7 => ∃ g, c.group = some g ∧ c.pickup ≤ (d.group g).df
  | 8 => ∃ g, c.group = some g ∧ (d.group g).p ≤ -c.pickup
  | _ => False

/-- The dropout test of an element's kind holds, its pickup in force being `p` (R70 to R73, R80). -/
def Dev.dropsOut (d : Dev) (c : ElementEntry) (p : Nat) : Prop :=
  match c.kind with
  | 0 | 1 => ∃ x, d.elementCurrents c = some x ∧ ∀ q ∈ [x.1, x.2.1, x.2.2], 400 * (d.quantity q).m2 < 722 * (p * p)
  | 2 => ∃ g, c.group = some g ∧ 400 * (d.group g).residM2 < 722 * (p * p)
  | 3 => ¬ d.zonePasses c
  | 4 => ∃ x, d.elementVoltages c = some x ∧
      if c.phaseMode = 1 then ∃ q ∈ [x.1, x.2.1, x.2.2], 882 * (p * p) < 400 * (d.quantity q).m2
      else ∀ q ∈ [x.1, x.2.1, x.2.2], 882 * (p * p) < 400 * (d.quantity q).m2
  | 5 => ∃ x, d.elementVoltages c = some x ∧ ∀ q ∈ [x.1, x.2.1, x.2.2], 400 * (d.quantity q).m2 < 722 * (p * p)
  | 6 => ∃ g, c.group = some g ∧ c.pickup + 20 < (d.group g).df
  | 7 => ∃ g, c.group = some g ∧ (d.group g).df < c.pickup - 20
  | 8 => ∃ g, c.group = some g ∧ -(Int.tdiv (c.pickup * 95) 100) < (d.group g).p
  | _ => True

/-! ## Ports -/

/-- A frame that arrives at a port only to be forwarded: of another Ethernet type, or a Bayline frame of another source, not
addressed to the part, that no block consumes (R6, test 6) or screens (R7), and that is no malformed SAMPLE of a stream's source
(R8). -/
structure Dev.passes (d : Dev) (p : Port) (f : EthFrame) : Prop where
  up    : (d.lnk.port p).up = true
  check : f.checkOk = true
  other : f.etherType = Config.baylineType →
    10 ≤ f.payload.length ∧ (parseHeader f.payload).source ≠ d.tab.device.station ∧
      (parseHeader f.payload).dest ≠ d.tab.device.station ∧
      (p = .p1 → d.tab.consumer (parseHeader f.payload) = none) ∧
      (p = .p2 → (parseHeader f.payload).kind = 3 → d.tab.breakerAt (parseHeader f.payload).dest = none) ∧
      (p = .p2 → content (Config.modulus d.f60) (parseHeader f.payload) f.payload = .malformed →
        ∀ i, d.tab.consumer (parseHeader f.payload) ≠ some (.stream i))

/-- A frame that arrives on P1 is a Bayline frame of another source, not addressed to the part, and what it carries is well
formed (R3 to R6). -/
structure State.carries (s : State) (f : EthFrame) (b : Body) : Prop where
  up      : s.dev.lnk.p1.up = true
  check   : f.checkOk = true
  type    : f.etherType = Config.baylineType
  length  : 10 ≤ f.payload.length
  source  : field f.payload 2 2 ≠ s.dev.tab.device.station
  dest    : field f.payload 0 2 ≠ s.dev.tab.device.station
  content : content (Config.modulus s.dev.f60) (parseHeader f.payload) f.payload = .body b

/-- No segment of the request in service is still to be placed in a port's response slot, and no immediate reply waits for it. -/
structure Dev.noSegment (d : Dev) (p : Port) : Prop where
  reply    : (d.lnk.port p).reply = none
  response : ∀ q r, d.mgt.service = some ⟨q, .sending r⟩ → q.port = p → r.placed = true

/-- A port whose link is UP and that is sending a frame. -/
structure Dev.portBusy (d : Dev) (p : Port) : Prop where
  up : (d.lnk.port p).up = true
  tx : (d.lnk.port p).tx.isSome = true

/-- A port whose link is UP, that sends nothing and has nothing waiting for it. -/
structure Dev.portIdle (d : Dev) (p : Port) : Prop extends Dev.noSegment d p where
  up      : (d.lnk.port p).up = true
  tx      : (d.lnk.port p).tx = none
  slot    : (d.lnk.port p).slot = none
  queues1 : p = .p1 → d.lnk.protQueue = [] ∧ d.lnk.ctrlQueue = [] ∧ d.lnk.setpoints = [] ∧ d.lnk.fq21 = []
  queues2 : p = .p2 → (d.tab.device.notice = 0 ∨ d.mgt.notices = []) ∧ d.lnk.fq12 = []

/-! ## Kinds of commands -/

/-- The area of the WRITE whose store write a command ends, and whether the store took it (R205). -/
def writeEnd : Instr → Option (Nat × Bool)
  | .deviceWriteComplete ok => some (2, ok)
  | .streamsWriteComplete ok => some (3, ok)
  | .quantitiesWriteComplete ok => some (4, ok)
  | .groupsWriteComplete ok => some (5, ok)
  | .elementsWriteComplete ok => some (6, ok)
  | .curvesWriteComplete ok => some (7, ok)
  | .zonesWriteComplete ok => some (8, ok)
  | .breakersWriteComplete ok => some (9, ok)
  | .busesWriteComplete ok => some (10, ok)
  | .sourcesWriteComplete ok => some (11, ok)
  | .causesWriteComplete ok => some (12, ok)
  | .schemesWriteComplete ok => some (13, ok)
  | .generatorsWriteComplete ok => some (14, ok)
  | .captureConfigWriteComplete ok => some (15, ok)
  | .settingsLockWriteComplete ok => some (20, ok)
  | _ => none

/-- The commands that happen when a timer, an age, a deadline or a period of the device falls due, or when MGT comes to serve
the request at the head of its queue. -/
def awaited (c : Instr) : Bool :=
  match c with
  | .frameReception _ _ _ | .linkDown _ | .linkUp _ | .transmissionEnd _ | .powerUp | .resetNLow | .resetComplete _ _ _ _
  | .bypassFrame _ _ | .auxSupplyLoss | .stateStoreComplete _ => false
  | _ => (writeEnd c).isNone

end Sys2Proof.Machine
end

