-- ==== Sys2Proof/Certificates/Slice0/Obligations.lean ====
section
/-!
DEFINITION. Sys2Proof/Certificates/Slice0/Obligations.lean: the statements for the provers. Each docstring names the rules of
spec/ that the statement rests on, or says that it states a choice of the model.
-/
open Sys2Proof Sys2Proof.Machine

/-! ## The machine -/

/-- The command at the front of the queue runs with the queue's rest. -/
def Obligations.StepRunsFrontCommand : Prop :=
  ∀ (c : Instr) (s : State), step { s with pending := c :: s.pending } = exec c s

/-- No event stops the part: every command answers a next state, and leaves the queue to the step. -/
def Obligations.EveryCommandAnswersNext : Prop :=
  ∀ (c : Instr) (s : State), ∃ t, exec c s = .next t ∧ t.pending = s.pending

/-- THE MODEL'S CHOICE (notes/assumptions/5.md). With no command waiting a part that runs counts a millisecond when nothing is
due, and what is due then begins to wait; a part in reset or without supply idles. -/
def Obligations.TickOnEmptyQueue : Prop :=
  ∀ s : State, s.pending = [] →
    (s.power ≠ .running → step s = .next s) ∧
    (s.power = .running → s.dev.due ≠ [] → step s = .next { s with pending := s.dev.due }) ∧
    (s.power = .running → s.dev.due = [] →
      step s = .next { s with dev := { s.dev with now := s.dev.now + 1 }
                              pending := ({ s.dev with now := s.dev.now + 1 } : Dev).due })

/-- Only the end of a store write changes the non-volatile store (R205). -/
def Obligations.StoreChangesOnlyAtWriteEnds : Prop :=
  ∀ (c : Instr) (s t : State), writeEnd c = none → (∀ ok, c ≠ .stateStoreComplete ok) → exec c s = .next t → t.nv = s.nv

/-- Every step keeps the device sound: the capture memory canonical and its areas each with one record (R183, R187 to R192), the
queues within their capacities with one frame for a breaker or a set (R11, R14, R15), the lists of MGT within theirs with one
entry for an error (R199, R208, R214, R216), every protection record that of an OPEN (R107, R111), the biases in their ranges
and no load target negative (R154; that the model holds a load target in a field without R154's upper bound is
notes/assumptions/20.md). In reset and without supply nothing volatile is ever kept (R21). -/
def Obligations.SoundnessKeptByStep : Prop :=
  (∀ s t : State, s.dev.sound → step s = .next t → t.dev.sound) ∧
  (∀ s t : State, s.blankWhileJoined → step s = .next t → t.blankWhileJoined)

/-- The state after reset is sound, and keeps nothing volatile where it may not. -/
def Obligations.SoundAtReset : Prop := State.reset.dev.sound ∧ State.reset.blankWhileJoined

/-! ## Reset and bypass -/

/-- Power-up, loss of supply, RESET_N low and the reset of a RESTART: everything volatile is lost and the ports are joined (R21,
R212); the link states, and the model's own fields (`lastOut`, `ties`), stay. RESET_N changes nothing more without supply, and
no reset of a RESTART begins unless one is due. Those fields are the model's choice (notes/assumptions/2.md and 15.md). -/
def Obligations.ResetLosesVolatileState : Prop :=
  ∀ s : State,
    let d : Dev := { lnk := { p1 := { up := s.dev.lnk.p1.up, lastOut := s.dev.lnk.p1.lastOut }
                              p2 := { up := s.dev.lnk.p2.up, lastOut := s.dev.lnk.p2.lastOut } }
                     ties := s.dev.ties }
    exec .powerUp s = .next { s with power := .inReset, dev := d } ∧
    exec .auxSupplyLoss s = .next { s with power := .noSupply, dev := d } ∧
    (s.power ≠ .noSupply → exec .resetNLow s = .next { s with power := .inReset, resetN := false, dev := d }) ∧
    (s.power = .noSupply → exec .resetNLow s = .next { s with resetN := false }) ∧
    (s.power = .running → s.dev.mgt.restartDue = true →
      exec .restartReset s = .next { s with power := .inReset, dev := d }) ∧
    (s.dev.mgt.restartDue = false → exec .restartReset s = .next s)

/-- A reset that completes on stored tables that pass their checks: the tables are taken as stored, and every block is in its
state after reset (R21, R39, R62, R90, R119, R150, R182, R187, R198, R206, R213, R218). THE MODEL'S CHOICES among what it says: that the clock and the
instant counter begin at 0 (notes/assumptions/9.md), the reset values that the rules do not give and the model's own fields'
(notes/assumptions/17.md), and that the count of ties and each port's last frame stand (notes/assumptions/2.md and 15.md). -/
def Obligations.CleanResetTakesStoredTables : Prop :=
  ∀ (s : State) (nomf mgw up1 up2 : Bool), s.power = .inReset → s.nv.failedAreas = [] →
    exec (.resetComplete nomf mgw up1 up2) s = .next { s with
      power := .running
      resetN := true
      dev := { tab := s.nv
               mode := if s.nv.device.startMode = 0 then .inService
                       else if s.nv.device.startMode = 1 then .test else .service
               f60 := if s.nv.device.freq = 1 then false else if s.nv.device.freq = 2 then true else nomf
               nomf := nomf
               mgw := mgw
               lnk := { p1 := { up := up1, lastOut := s.dev.lnk.p1.lastOut }
                        p2 := { up := up2, lastOut := s.dev.lnk.p2.lastOut } }
               sau := { streams := Vector.ofFn (fun i =>
                          { state := if (tget s.nv.streams i).enable = 1 then .seeking else .off }) }
               cap := if s.nv.capture.count = 0 then {}
                      else { gens := Vector.ofFn (fun a => if a = 0 then 1 else 0), state := .armed, lastArmed := some 0 }
               ties := s.dev.ties } }

/-- A reset that completes with a stored table that fails its checks: SERVICE mode, a SETTINGS_INVALID entry for each failing
area, HEALTHY low, the store left as it is, and the zones taken as stored, failing ones too (R90, R213, R218). -/
def Obligations.FailingTableBootsInService : Prop :=
  ∀ (s : State) (nomf mgw up1 up2 : Bool), s.power = .inReset → s.nv.failedAreas ≠ [] →
    ∃ t, exec (.resetComplete nomf mgw up1 up2) s = .next t ∧ t.power = .running ∧ t.nv = s.nv ∧ t.dev.mode = .service ∧
      t.dev.mgt.tableFailed = true ∧ t.healthy = false ∧ t.dev.tab.zones = s.nv.zones ∧
      ∀ a ∈ s.nv.failedAreas, errorListed t.dev.mgt.errors .settingsInvalid a = true

/-- While the ports are joined a frame that arrives on one leaves on the other unchanged, whatever it carries, nothing else
changes, and TRIP_OUT and HEALTHY are low; while the part runs there is no bypass, TRIP_OUT is asserted exactly in IN_SERVICE
mode with an element operated, and HEALTHY exactly in IN_SERVICE mode with no MAJOR error listed (R21, R88, R213, R214). THE
MODEL'S CHOICES (notes/assumptions/15.md): that the crossing is one step which `lastOut` alone shows, that FRAME_RECEPTION crosses
too while the ports are joined, and that BYPASS_FRAME changes nothing while the part runs. -/
def Obligations.BypassCarriesFramesUnchanged : Prop :=
  ∀ (s : State) (p : Port) (f : EthFrame) (m : Bool),
    (s.power ≠ .running →
      exec (.bypassFrame p f) s = .next (s.withDev (s.dev.modPort p.other (fun r => { r with lastOut := some f }))) ∧
      exec (.frameReception p f m) s = .next (s.withDev (s.dev.modPort p.other (fun r => { r with lastOut := some f }))) ∧
      s.bypassed = true ∧ s.tripOut = false ∧ s.healthy = false) ∧
    (s.power = .running → exec (.bypassFrame p f) s = .next s ∧ s.bypassed = false ∧
      (s.tripOut = true ↔ s.dev.mode = .inService ∧ ∃ e, (s.dev.element e).operated = true) ∧
      (s.healthy = true ↔ s.dev.mode = .inService ∧ ∀ x ∈ s.dev.mgt.errors,
        x.code ∉ [.streamsSilent, .bfOperated, .overlapExceeded, .schemeFailed, .settingsInvalid, .storeFault]))

/-! ## The link -/

/-- Frames that go no further: at a DOWN port nothing happens; a frame whose Ethernet check fails, a Bayline payload shorter
than a header, and a frame of the part's own source only count (R2, R3, R6, R7, R20). That the level of MAINT_IN arrives with
each frame, at a DOWN port too, is the model's choice (notes/assumptions/18.md). -/
def Obligations.DiscardedFramesOnlyCount : Prop :=
  ∀ (s : State) (p : Port) (f : EthFrame) (m : Bool), s.power = .running →
    let d : Dev := { s.dev with prot := { s.dev.prot with maintPin := m } }
    ((s.dev.lnk.port p).up = false → exec (.frameReception p f m) s = .next (s.withDev d)) ∧
    ((s.dev.lnk.port p).up = true → f.checkOk = false →
      exec (.frameReception p f m) s
        = .next (s.withDev (d.modCounters p (fun c => { c with rxCheckError := min (c.rxCheckError + 1) 4294967295 })))) ∧
    ((s.dev.lnk.port p).up = true → f.checkOk = true → f.etherType = 0x88B5 → f.payload.length < 10 →
      exec (.frameReception p f m) s
        = .next (s.withDev (d.modCounters p (fun c => { c with rxRunt := min (c.rxRunt + 1) 4294967295 })))) ∧
    ((s.dev.lnk.port p).up = true → f.checkOk = true → f.etherType = 0x88B5 → 10 ≤ f.payload.length →
      field f.payload 2 2 = s.dev.tab.device.station →
      exec (.frameReception p f m) s
        = .next (s.withDev (d.modCounters p (fun c => { c with rxGood := min (c.rxGood + 1) 4294967295
                                                               rxOwnSource := min (c.rxOwnSource + 1) 4294967295 }))))

/-- A frame that is only forwarded leaves on the other port as it arrived, at once when that port is idle (R3, R6, R7, R11). A
frame to be forwarded joins the tail of its queue while the other port sends or its link is DOWN, and is dropped and counted when
32 wait (R2, R11, R20). That the level of MAINT_IN arrives with the frame is the model's choice (notes/assumptions/18.md). -/
def Obligations.ForwardedFrames : Prop :=
  (∀ (s : State) (p : Port) (f : EthFrame) (m : Bool), s.power = .running → s.dev.passes p f → s.dev.portIdle p.other →
      exec (.frameReception p f m) s
        = .next (s.withDev ((({ s.dev with prot := { s.dev.prot with maintPin := m } } : Dev).modCounters p
            (fun c => { c with rxGood := min (c.rxGood + 1) 4294967295 })).modPort p.other (fun r => { r with tx := some f })))) ∧
  (∀ (s : State) (p : Port) (f : EthFrame) (m : Bool), s.power = .running → s.dev.passes p f →
      s.dev.portBusy p.other ∨ (s.dev.lnk.port p.other).up = false →
      ∃ t, exec (.frameReception p f m) s = .next t ∧ t.nv = s.nv ∧
        t.dev.bare = ({ s.dev with prot := { s.dev.prot with maintPin := m } } : Dev).bare ∧
        (t.dev.lnk.port p.other).tx = (s.dev.lnk.port p.other).tx ∧
        (p = .p1 → s.dev.lnk.fq12.length < 32 →
          t.dev.lnk.fq12 = s.dev.lnk.fq12 ++ [f] ∧ t.dev.lnk.fq12Drop = s.dev.lnk.fq12Drop) ∧
        (p = .p1 → 32 ≤ s.dev.lnk.fq12.length →
          t.dev.lnk.fq12 = s.dev.lnk.fq12 ∧ t.dev.lnk.fq12Drop = min (s.dev.lnk.fq12Drop + 1) 4294967295) ∧
        (p = .p1 → t.dev.lnk.fq21 = s.dev.lnk.fq21 ∧ t.dev.lnk.fq21Drop = s.dev.lnk.fq21Drop) ∧
        (p = .p2 → s.dev.lnk.fq21.length < 32 →
          t.dev.lnk.fq21 = s.dev.lnk.fq21 ++ [f] ∧ t.dev.lnk.fq21Drop = s.dev.lnk.fq21Drop) ∧
        (p = .p2 → 32 ≤ s.dev.lnk.fq21.length →
          t.dev.lnk.fq21 = s.dev.lnk.fq21 ∧ t.dev.lnk.fq21Drop = min (s.dev.lnk.fq21Drop + 1) 4294967295) ∧
        (p = .p2 → t.dev.lnk.fq12 = s.dev.lnk.fq12 ∧ t.dev.lnk.fq12Drop = s.dev.lnk.fq12Drop))

/-- A malformed SAMPLE frame of an enabled stream's source, consumed on P1 or addressed to the part on either port: the frame is
dropped and counted, the missing-sample report increments the stream's malformed counter, and nothing is placed, no timer
restarts and no slot closes. One that P2 only forwards is reported as well, does not count as malformed, and leaves on an idle
P1 as it arrived (R3, R6, R7, R8, R20, R29). THE MODEL'S READING: R8 reports it on either port, also as it is forwarded
(notes/assumptions/19.md), and the level of MAINT_IN arrives with the frame (notes/assumptions/18.md). -/
def Obligations.MalformedSampleOnlyCounts : Prop :=
  ∀ (s : State) (f : EthFrame) (m : Bool) (i : Fin 24), s.power = .running → f.checkOk = true → f.etherType = 0x88B5 →
    10 ≤ f.payload.length → field f.payload 4 1 = 1 → field f.payload 2 2 ≠ s.dev.tab.device.station →
    s.dev.tab.streamAt (field f.payload 2 2) = some i →
    content (Config.modulus s.dev.f60) (parseHeader f.payload) f.payload = .malformed →
    let d : Dev := { s.dev with prot := { s.dev.prot with maintPin := m } }
    let dropped := fun (p : Port) => (d.modCounters p
      (fun c => { c with rxGood := min (c.rxGood + 1) 4294967295, rxMalformed := min (c.rxMalformed + 1) 4294967295 })).modStream
        i (fun x => { x with malformed := min (x.malformed + 1) 4294967295 })
    (s.dev.lnk.p1.up = true → exec (.frameReception .p1 f m) s = .next (s.withDev (dropped .p1))) ∧
    (s.dev.lnk.p2.up = true → field f.payload 0 2 = s.dev.tab.device.station →
      exec (.frameReception .p2 f m) s = .next (s.withDev (dropped .p2))) ∧
    (s.dev.lnk.p2.up = true → field f.payload 0 2 ≠ s.dev.tab.device.station → s.dev.portIdle .p1 →
      exec (.frameReception .p2 f m) s
        = .next (s.withDev (((d.modCounters .p2 (fun c => { c with rxGood := min (c.rxGood + 1) 4294967295 })).modStream
            i (fun x => { x with malformed := min (x.malformed + 1) 4294967295 })).modPort .p1 (fun r => { r with tx := some f }))))

/-- A station COMMAND frame to a used breaker. A CLOSE against which a reason stands (`Dev.screenedFor`: a claim, the lockout, an
effective position UNKNOWN, a permissive that does not hold or a failed entry, both side buses LIVE) is not forwarded, counts as
screened, and MGT is asked for a COMMAND_SCREENED notice with the breaker as subject and the command id and the lowest such reason
as detail. An OPEN, and a CLOSE against which none stands, joins FQ21 behind the frames that wait for a busy P1, or is dropped
and counted when 32 wait (R11, R12, R13, R105, R216). That the level of MAINT_IN arrives with the frame is the model's choice
(notes/assumptions/18.md). -/
def Obligations.StationCommandsScreened : Prop :=
  ∀ (s : State) (f : EthFrame) (m : Bool) (b : Fin 24) (id : Nat) (a : Action), s.power = .running → s.dev.lnk.p2.up = true →
    f.checkOk = true → f.etherType = 0x88B5 → 10 ≤ f.payload.length →
    field f.payload 4 1 = 3 → field f.payload 2 2 ≠ s.dev.tab.device.station → field f.payload 0 2 ≠ s.dev.tab.device.station →
    s.dev.tab.breakerAt (field f.payload 0 2) = some b → s.dev.portBusy .p1 →
    content (Config.modulus s.dev.f60) (parseHeader f.payload) f.payload = .body (.command id a) →
    ∃ t, exec (.frameReception .p2 f m) s = .next t ∧ t.nv = s.nv ∧ t.dev.lnk.p1.tx = s.dev.lnk.p1.tx ∧
      t.dev.bare = ({ s.dev with prot := { s.dev.prot with maintPin := m } } : Dev).bare ∧
      (∀ k, a = .closeIt → s.dev.screenedFor b k → (∀ j, j < k → ¬ s.dev.screenedFor b j) →
        t.dev.lnk.fq21 = s.dev.lnk.fq21 ∧ t.dev.lnk.fq21Drop = s.dev.lnk.fq21Drop ∧
        t.dev.lnk.screened = min (s.dev.lnk.screened + 1) 4294967295 ∧
        (s.dev.tab.device.notice = 0 → t.dev.mgt.notices = s.dev.mgt.notices) ∧
        (s.dev.tab.device.notice ≠ 0 → s.dev.portBusy .p2 → s.dev.mgt.notices.length < 32 →
          t.dev.mgt.notices = s.dev.mgt.notices ++ [{
            kind := 7, subject := b.val, ms := s.dev.now, inst := s.dev.sau.inst
            detail := beBytes 2 id ++ beBytes 1 k ++ [0] }])) ∧
      (a = .openIt ∨ (∀ k, ¬ s.dev.screenedFor b k) →
        t.dev.lnk.screened = s.dev.lnk.screened ∧ t.dev.mgt.notices = s.dev.mgt.notices ∧
        (s.dev.lnk.fq21.length < 32 →
          t.dev.lnk.fq21 = s.dev.lnk.fq21 ++ [f] ∧ t.dev.lnk.fq21Drop = s.dev.lnk.fq21Drop) ∧
        (32 ≤ s.dev.lnk.fq21.length →
          t.dev.lnk.fq21 = s.dev.lnk.fq21 ∧ t.dev.lnk.fq21Drop = min (s.dev.lnk.fq21Drop + 1) 4294967295))

/-- P1 takes the head of the first queue that is not empty: protection commands, control commands, setpoints, the response
slot, FQ21; the frame sent counts, and a frame of the part's own carries the port's sequence value (R17, R19, R20). Nothing
but LNK and MGT changes. P2 takes its response slot, then the head of the notice queue while the notice address is not 0, then
the head of FQ12; a frame taken leaves its queue (R18, R20, R216). -/
def Obligations.EndOfTransmission : Prop :=
  (∀ (s : State) (f : EthFrame), s.power = .running → s.dev.lnk.p1.up = true → s.dev.lnk.p1.tx = some f →
      ∃ t, exec (.transmissionEnd .p1) s = .next t ∧ t.nv = s.nv ∧ t.dev.bare = s.dev.bare ∧
        t.dev.lnk.p1.lastOut = some f ∧ t.dev.lnk.p1.counters.txFrames = min (s.dev.lnk.p1.counters.txFrames + 1) 4294967295 ∧
        t.dev.lnk.p2 = s.dev.lnk.p2 ∧ t.dev.lnk.fq12 = s.dev.lnk.fq12 ∧
        (∀ x xs, s.dev.lnk.protQueue = x :: xs →
          t.dev.lnk.p1.tx = some (x.2.toEth .p1 s.dev.lnk.p1.seq) ∧ t.dev.lnk.p1.seq = s.dev.lnk.p1.seq + 1 ∧
          t.dev.lnk.protQueue = xs ∧ t.dev.lnk.ctrlQueue = s.dev.lnk.ctrlQueue ∧ t.dev.lnk.setpoints = s.dev.lnk.setpoints ∧
          t.dev.lnk.fq21 = s.dev.lnk.fq21) ∧
        (∀ x xs, s.dev.lnk.protQueue = [] → s.dev.lnk.ctrlQueue = x :: xs →
          t.dev.lnk.p1.tx = some (x.2.toEth .p1 s.dev.lnk.p1.seq) ∧ t.dev.lnk.p1.seq = s.dev.lnk.p1.seq + 1 ∧
          t.dev.lnk.protQueue = [] ∧ t.dev.lnk.ctrlQueue = xs ∧ t.dev.lnk.setpoints = s.dev.lnk.setpoints ∧
          t.dev.lnk.fq21 = s.dev.lnk.fq21) ∧
        (∀ x xs, s.dev.lnk.protQueue = [] → s.dev.lnk.ctrlQueue = [] → s.dev.lnk.setpoints = x :: xs →
          t.dev.lnk.p1.tx = some (x.2.toEth .p1 s.dev.lnk.p1.seq) ∧ t.dev.lnk.p1.seq = s.dev.lnk.p1.seq + 1 ∧
          t.dev.lnk.protQueue = [] ∧ t.dev.lnk.ctrlQueue = [] ∧ t.dev.lnk.setpoints = xs ∧ t.dev.lnk.fq21 = s.dev.lnk.fq21) ∧
        (∀ e, s.dev.lnk.protQueue = [] → s.dev.lnk.ctrlQueue = [] → s.dev.lnk.setpoints = [] → s.dev.lnk.p1.slot = some e →
          t.dev.lnk.p1.tx = some (e.frame.toEth .p1 s.dev.lnk.p1.seq) ∧ t.dev.lnk.p1.seq = s.dev.lnk.p1.seq + 1 ∧
          t.dev.lnk.protQueue = [] ∧ t.dev.lnk.ctrlQueue = [] ∧ t.dev.lnk.setpoints = [] ∧ t.dev.lnk.fq21 = s.dev.lnk.fq21) ∧
        (∀ x xs, s.dev.lnk.protQueue = [] → s.dev.lnk.ctrlQueue = [] → s.dev.lnk.setpoints = [] → s.dev.lnk.p1.slot = none →
          s.dev.lnk.fq21 = x :: xs →
          t.dev.lnk.p1.tx = some x ∧ t.dev.lnk.p1.seq = s.dev.lnk.p1.seq ∧
          t.dev.lnk.protQueue = [] ∧ t.dev.lnk.ctrlQueue = [] ∧ t.dev.lnk.setpoints = [] ∧ t.dev.lnk.fq21 = xs) ∧
        (s.dev.lnk.protQueue = [] → s.dev.lnk.ctrlQueue = [] → s.dev.lnk.setpoints = [] → s.dev.lnk.p1.slot = none →
          s.dev.lnk.fq21 = [] → s.dev.noSegment .p1 → t.dev.lnk.p1.tx = none)) ∧
  (∀ (s : State) (f : EthFrame), s.power = .running → s.dev.lnk.p2.up = true → s.dev.lnk.p2.tx = some f →
      ∃ t, exec (.transmissionEnd .p2) s = .next t ∧ t.nv = s.nv ∧ t.dev.bare = s.dev.bare ∧
        t.dev.lnk.p2.lastOut = some f ∧ t.dev.lnk.p2.counters.txFrames = min (s.dev.lnk.p2.counters.txFrames + 1) 4294967295 ∧
        t.dev.lnk.p1 = s.dev.lnk.p1 ∧ t.dev.lnk.fq21 = s.dev.lnk.fq21 ∧
        (∀ e, s.dev.lnk.p2.slot = some e →
          t.dev.lnk.p2.tx = some (e.frame.toEth .p2 s.dev.lnk.p2.seq) ∧ t.dev.mgt.notices = s.dev.mgt.notices ∧
          t.dev.lnk.fq12 = s.dev.lnk.fq12) ∧
        (∀ n ns, s.dev.lnk.p2.slot = none → s.dev.tab.device.notice ≠ 0 → s.dev.mgt.notices = n :: ns →
          t.dev.lnk.p2.tx = some ((s.dev.noticeFrame n).toEth .p2 s.dev.lnk.p2.seq) ∧ t.dev.mgt.notices = ns ∧
          t.dev.lnk.fq12 = s.dev.lnk.fq12) ∧
        (∀ x xs, s.dev.lnk.p2.slot = none → s.dev.tab.device.notice = 0 ∨ s.dev.mgt.notices = [] → s.dev.lnk.fq12 = x :: xs →
          t.dev.lnk.p2.tx = some x ∧ t.dev.mgt.notices = s.dev.mgt.notices ∧ t.dev.lnk.fq12 = xs) ∧
        (s.dev.lnk.p2.slot = none → s.dev.tab.device.notice = 0 ∨ s.dev.mgt.notices = [] → s.dev.lnk.fq12 = [] →
          s.dev.noSegment .p2 → t.dev.lnk.p2.tx = none))

/-- A link that goes DOWN loses the frame it sends and the segment in its slot, each counted, and keeps its queues; a link
that returns to UP sends again from its queues: P1 from the first that is not empty of protection commands, control commands,
setpoints, the response slot and FQ21, P2 from the response slot, the notices while the notice address is not 0, and FQ12; with
nothing waiting it sends nothing (R2, R17, R18, R20). A link already so is left as it is. -/
def Obligations.LinkDownAndUp : Prop :=
  ∀ (s : State) (p : Port), s.power = .running →
    ((s.dev.lnk.port p).up = true →
      ∃ t, exec (.linkDown p) s = .next t ∧ t.dev.bare = s.dev.bare ∧
        (t.dev.lnk.port p).up = false ∧ (t.dev.lnk.port p).tx = none ∧ (t.dev.lnk.port p).slot = none ∧
        (t.dev.lnk.port p).counters.linkDown = min ((s.dev.lnk.port p).counters.linkDown + 1) 4294967295 ∧
        (s.dev.noSegment p → (s.dev.lnk.port p).tx = none → (s.dev.lnk.port p).slot = none →
          (t.dev.lnk.port p).counters.txDiscarded = (s.dev.lnk.port p).counters.txDiscarded) ∧
        (s.dev.noSegment p →
            ((s.dev.lnk.port p).tx.isSome = true ∧ (s.dev.lnk.port p).slot = none) ∨
            ((s.dev.lnk.port p).tx = none ∧ (s.dev.lnk.port p).slot.isSome = true) →
          (t.dev.lnk.port p).counters.txDiscarded = min ((s.dev.lnk.port p).counters.txDiscarded + 1) 4294967295) ∧
        (s.dev.noSegment p → (s.dev.lnk.port p).tx.isSome = true → (s.dev.lnk.port p).slot.isSome = true →
          (t.dev.lnk.port p).counters.txDiscarded = min ((s.dev.lnk.port p).counters.txDiscarded + 2) 4294967295) ∧
        t.dev.lnk.fq12 = s.dev.lnk.fq12 ∧ t.dev.lnk.fq21 = s.dev.lnk.fq21 ∧ t.dev.lnk.protQueue = s.dev.lnk.protQueue ∧
        t.dev.lnk.ctrlQueue = s.dev.lnk.ctrlQueue ∧ t.dev.lnk.setpoints = s.dev.lnk.setpoints ∧
        t.dev.lnk.port p.other = s.dev.lnk.port p.other) ∧
    ((s.dev.lnk.port p).up = false → exec (.linkDown p) s = .next s) ∧
    ((s.dev.lnk.port p).up = true → exec (.linkUp p) s = .next s) ∧
    ((s.dev.lnk.port p).up = false →
      ∃ t, exec (.linkUp p) s = .next t ∧ t.dev.bare = s.dev.bare ∧ (t.dev.lnk.port p).up = true ∧
        (t.dev.lnk.port p).counters = (s.dev.lnk.port p).counters ∧ t.dev.lnk.port p.other = s.dev.lnk.port p.other ∧
        (p = .p1 → s.dev.lnk.p1.tx = none → t.dev.lnk.fq12 = s.dev.lnk.fq12 ∧
          (∀ x xs, s.dev.lnk.protQueue = x :: xs →
            t.dev.lnk.p1.tx = some (x.2.toEth .p1 s.dev.lnk.p1.seq) ∧ t.dev.lnk.protQueue = xs ∧
            t.dev.lnk.ctrlQueue = s.dev.lnk.ctrlQueue ∧ t.dev.lnk.setpoints = s.dev.lnk.setpoints ∧
            t.dev.lnk.fq21 = s.dev.lnk.fq21) ∧
          (∀ x xs, s.dev.lnk.protQueue = [] → s.dev.lnk.ctrlQueue = x :: xs →
            t.dev.lnk.p1.tx = some (x.2.toEth .p1 s.dev.lnk.p1.seq) ∧ t.dev.lnk.protQueue = [] ∧ t.dev.lnk.ctrlQueue = xs ∧
            t.dev.lnk.setpoints = s.dev.lnk.setpoints ∧ t.dev.lnk.fq21 = s.dev.lnk.fq21) ∧
          (∀ x xs, s.dev.lnk.protQueue = [] → s.dev.lnk.ctrlQueue = [] → s.dev.lnk.setpoints = x :: xs →
            t.dev.lnk.p1.tx = some (x.2.toEth .p1 s.dev.lnk.p1.seq) ∧ t.dev.lnk.protQueue = [] ∧ t.dev.lnk.ctrlQueue = [] ∧
            t.dev.lnk.setpoints = xs ∧ t.dev.lnk.fq21 = s.dev.lnk.fq21) ∧
          (s.dev.lnk.protQueue = [] → s.dev.lnk.ctrlQueue = [] → s.dev.lnk.setpoints = [] →
            t.dev.lnk.protQueue = [] ∧ t.dev.lnk.ctrlQueue = [] ∧ t.dev.lnk.setpoints = [] ∧
            (∀ e, s.dev.lnk.p1.slot = some e →
              t.dev.lnk.p1.tx = some (e.frame.toEth .p1 s.dev.lnk.p1.seq) ∧ t.dev.lnk.fq21 = s.dev.lnk.fq21) ∧
            (∀ x xs, s.dev.lnk.p1.slot = none → s.dev.lnk.fq21 = x :: xs → t.dev.lnk.p1.tx = some x ∧ t.dev.lnk.fq21 = xs) ∧
            (s.dev.lnk.p1.slot = none → s.dev.lnk.fq21 = [] → s.dev.noSegment .p1 → t.dev.lnk.p1.tx = none))) ∧
        (p = .p2 → s.dev.lnk.p2.tx = none → t.dev.lnk.fq21 = s.dev.lnk.fq21 ∧
          (∀ e, s.dev.lnk.p2.slot = some e →
            t.dev.lnk.p2.tx = some (e.frame.toEth .p2 s.dev.lnk.p2.seq) ∧ t.dev.mgt.notices = s.dev.mgt.notices ∧
            t.dev.lnk.fq12 = s.dev.lnk.fq12) ∧
          (∀ n ns, s.dev.lnk.p2.slot = none → s.dev.tab.device.notice ≠ 0 → s.dev.mgt.notices = n :: ns →
            t.dev.lnk.p2.tx = some ((s.dev.noticeFrame n).toEth .p2 s.dev.lnk.p2.seq) ∧ t.dev.mgt.notices = ns ∧
            t.dev.lnk.fq12 = s.dev.lnk.fq12) ∧
          (∀ x xs, s.dev.lnk.p2.slot = none → s.dev.tab.device.notice = 0 ∨ s.dev.mgt.notices = [] → s.dev.lnk.fq12 = x :: xs →
            t.dev.lnk.p2.tx = some x ∧ t.dev.mgt.notices = s.dev.mgt.notices ∧ t.dev.lnk.fq12 = xs) ∧
          (s.dev.lnk.p2.slot = none → s.dev.tab.device.notice = 0 ∨ s.dev.mgt.notices = [] → s.dev.lnk.fq12 = [] →
            s.dev.noSegment .p2 → t.dev.lnk.p2.tx = none)))

/-- A STATUS frame of a used breaker's bay, well formed and not addressed to the part: the breaker holds what it reports and
its age restarts (R6, R10, R94). The other breakers' reports, the measured values and the stored tables, but for what a
scheme's end writes, are unchanged. A GENSET frame of a set's controller, well formed and not addressed to the part: the
record holds what it reports and the controller age restarts (R6, R10, R155). -/
def Obligations.FieldReportsTaken : Prop :=
  (∀ (s : State) (f : EthFrame) (m : Bool) (b : Fin 24) (pos : Position) (spring inLocal : Bool), s.power = .running →
      s.carries f (.status pos spring inLocal) → field f.payload 4 1 = 2 →
      s.dev.tab.breakerAt (field f.payload 2 2) = some b →
      ∃ t, exec (.frameReception .p1 f m) s = .next t ∧ t.nv = s.nv ∧ t.dev.now = s.dev.now ∧
        (t.dev.breaker b).reported = pos ∧ (t.dev.breaker b).spring = spring ∧ (t.dev.breaker b).inLocal = inLocal ∧
        (t.dev.breaker b).ageFrom = s.dev.now ∧ (t.dev.breaker b).aged = false ∧
        (t.dev.breaker b).forced = (s.dev.breaker b).forced ∧
        (∀ x, x ≠ b → (t.dev.breaker x).reported = (s.dev.breaker x).reported ∧ (t.dev.breaker x).ageFrom = (s.dev.breaker x).ageFrom) ∧
        t.dev.meas = s.dev.meas ∧ t.dev.sau = s.dev.sau ∧ t.dev.swm.buses = s.dev.swm.buses ∧
        { t.dev.tab with causes := s.dev.tab.causes } = s.dev.tab) ∧
  (∀ (s : State) (f : EthFrame) (m : Bool) (g : Fin 6) (e : Engine) (ready manual : Bool), s.power = .running →
      s.carries f (.genset e ready manual) → field f.payload 4 1 = 4 →
      s.dev.tab.genAt (field f.payload 2 2) = some g →
      ∃ t, exec (.frameReception .p1 f m) s = .next t ∧ t.nv = s.nv ∧ t.dev.now = s.dev.now ∧
        (t.dev.gen g).engine = e ∧ (t.dev.gen g).ready = ready ∧ (t.dev.gen g).manual = manual ∧
        (t.dev.gen g).ageFrom = s.dev.now ∧ (t.dev.gen g).aged = false ∧
        (∀ x, x ≠ g → (t.dev.gen x).engine = (s.dev.gen x).engine ∧ (t.dev.gen x).ageFrom = (s.dev.gen x).ageFrom) ∧
        t.dev.meas = s.dev.meas ∧ t.dev.sau = s.dev.sau ∧ t.dev.swm.buses = s.dev.swm.buses ∧
        { t.dev.tab with causes := s.dev.tab.causes } = s.dev.tab)

/-- A sample of a stream whose ring runs: behind the ring it is late, into a slot that has the stream's delivery it is a
duplicate, and either only counts (R26, R27); the fourth sample in a row ahead of the ring makes its stream LOST (R27, R34).
With the forward flag set the frame also leaves on an idle P2 as it arrived (R6). That the level of MAINT_IN arrives with the
frame is the model's choice (notes/assumptions/18.md). -/
def Obligations.SamplesNotPlaced : Prop :=
  ∀ (s : State) (f : EthFrame) (m : Bool) (i : Fin 24) (count : Nat) (qs : List Quality) (vs : List Int) (r : Ring),
    s.power = .running → s.carries f (.sample count qs vs) → field f.payload 4 1 = 1 →
    s.dev.tab.streamAt (field f.payload 2 2) = some i → s.dev.work = [] → s.dev.sau.ring = some r →
    ((s.dev.streamCfg i).forward = 1 → s.dev.portIdle .p2) →
    let c := Config.modulus s.dev.f60
    let dist := (((count + (s.dev.streamCfg i).delay) % c) + c - r.oldest) % c
    let d : Dev := ({ s.dev with prot := { s.dev.prot with maintPin := m } } : Dev).modCounters .p1
      (fun x => { x with rxGood := min (x.rxGood + 1) 4294967295 })
    let sent := fun (x : Dev) =>
      if (s.dev.streamCfg i).forward = 1 then x.modPort .p2 (fun r => { r with tx := some f }) else x
    (c / 2 ≤ dist → exec (.frameReception .p1 f m) s
      = .next (s.withDev (sent (d.modStream i (fun x => { x with late := min (x.late + 1) 4294967295, outOfWindow := 0 }))))) ∧
    (∀ k : Fin 16, dist = k.val → (tget r.slots k).delivered.contains i = true → exec (.frameReception .p1 f m) s
      = .next (s.withDev (sent (d.modStream i (fun x =>
          { x with duplicate := min (x.duplicate + 1) 4294967295, outOfWindow := 0 }))))) ∧
    (16 ≤ dist → dist < c / 2 → (s.dev.stream i).outOfWindow < 3 → exec (.frameReception .p1 f m) s
      = .next (s.withDev (sent (d.modStream i (fun x => { x with outOfWindow := x.outOfWindow + 1 }))))) ∧
    (16 ≤ dist → dist < c / 2 → 3 ≤ (s.dev.stream i).outOfWindow → ∃ t, exec (.frameReception .p1 f m) s = .next t ∧
      (t.dev.stream i).state = .lost ∧ (t.dev.stream i).outOfWindow = 0)

/-- A sample placed in an open slot: the quantity of each pair of the channel map takes the sample's value, held in the range of
a 24-bit sample with GOOD lowered to QUESTIONABLE where that changes it, or INVALID with value 0 where the frame lacks the
channel, and every other quantity keeps its own (R28). A sample that FRAME_RECEPTION accepts is placed so at its distance, with
the newest placed slot, the stream's last aligned count, FILLING from SEEKING and LOST, and the silence timer as R28 states
them; where no slot is complete or at wait depth nothing else happens (R26, R28, R30). Where one slot closes, each stream makes
its transition, each quantity's window takes its final value (as placed, held from 80 slots earlier, or INVALID), the ring moves
on by one, and a phasor instant counts at 19 modulo 20 (R30, R31, R34, R35, R38, R43). That the level of MAINT_IN arrives with
the frame is the model's choice (notes/assumptions/18.md). `x` is the device with the sample placed. -/
def Obligations.PlacedSampleValues : Prop :=
  (∀ (x : Slot) (i : Fin 24) (pairs : List (Nat × Nat)) (qs : List Quality) (vs : List Int) (q : Fin 96),
    (pairs.map Prod.snd).Nodup →
    (x.place i pairs qs vs).delivered = i :: x.delivered ∧
    ((∀ p ∈ pairs, p.2 ≠ q.val) → tget (x.place i pairs qs vs).values q = tget x.values q) ∧
    (∀ ch v ql, (ch, q.val) ∈ pairs → vs[ch]? = some v → qs[ch]? = some ql →
      tget (x.place i pairs qs vs).values q =
        { value := if v < -8388607 then -8388607 else if 8388607 < v then 8388607 else v
          quality := if (v < -8388607 ∨ 8388607 < v) ∧ ql = .good then .questionable else ql }) ∧
    (∀ ch, (ch, q.val) ∈ pairs → vs[ch]? = none ∨ qs[ch]? = none → tget (x.place i pairs qs vs).values q = {})) ∧
  (∀ (s : State) (f : EthFrame) (m : Bool) (i : Fin 24) (count : Nat) (qs : List Quality) (vs : List Int) (k : Fin 16),
    s.power = .running → s.carries f (.sample count qs vs) → field f.payload 4 1 = 1 →
    s.dev.tab.streamAt (field f.payload 2 2) = some i → (s.dev.streamCfg i).forward ≠ 1 → s.dev.work = [] →
    let c := Config.modulus s.dev.f60
    let a := (count + (s.dev.streamCfg i).delay) % c
    let r : Ring := s.dev.sau.ring.getD { oldest := a }
    (a + c - r.oldest) % c = k.val → (tget r.slots k).delivered.contains i = false →
    let ring : Ring := { r with
      slots := tset r.slots k ((tget r.slots k).place i ((s.dev.streamCfg i).slots.toList.take (s.dev.streamCfg i).count) qs vs)
      newest := if r.newest.all (fun n => decide ((n + c - r.oldest) % c < k.val)) then some a else r.newest }
    let d : Dev := ({ s.dev with prot := { s.dev.prot with maintPin := m } } : Dev).modCounters .p1
      (fun x => { x with rxGood := min (x.rxGood + 1) 4294967295 })
    let x : Dev := ({ d with sau := { d.sau with ring := some ring, silence := some (after s.dev.now 10) } } : Dev).modStream i
      (fun y => if y.state = .seeking ∨ y.state = .lost then
          { y with outOfWindow := 0, last := some a, state := .filling, fill := 0, missing := 0 }
        else { y with outOfWindow := 0, last := some a })
    let waits := fun (j : Fin 24) => (x.stream j).state = .filling ∨ (x.stream j).state = .locked ∨ (x.stream j).state = .holding
    let delivered := fun (j : Fin 24) => (tget ring.slots 0).delivered.contains j
    let ahead := fun (n : Nat) => (n + c - ring.oldest) % c
    ((∃ j, waits j ∧ delivered j = false) → (∀ n, ring.newest = some n → ahead n < 3) →
      exec (.frameReception .p1 f m) s = .next (s.withDev x)) ∧
    (((∃ j, waits j) ∧ (∀ j, waits j → delivered j = true)) ∨ (∃ n, ring.newest = some n ∧ 3 ≤ ahead n) →
      (∀ n, ring.newest = some n → n ≠ ring.oldest → (n + c - (ring.oldest + 1) % c) % c < 3) →
      (∃ j, ((x.stream j).state = .filling ∨ (x.stream j).state = .locked) ∧ (tget ring.slots 1).delivered.contains j = false) →
      ∃ t, exec (.frameReception .p1 f m) s = .next t ∧ t.nv = s.nv ∧
        (∃ r', t.dev.sau.ring = some r' ∧ r'.oldest = (ring.oldest + 1) % c ∧ tget r'.slots 15 = {} ∧
          (∀ n : Fin 15, tget r'.slots ⟨n.val, by omega⟩ = tget ring.slots ⟨n.val + 1, by omega⟩) ∧
          r'.newest = if ring.newest = some ring.oldest then none else ring.newest) ∧
        t.dev.sau.inst = (if ring.oldest % 20 = 19 then s.dev.sau.inst + 1 else s.dev.sau.inst) ∧
        (∀ j, let y := x.stream j
          (delivered j = true →
            (y.state = .filling → (t.dev.stream j).fill = y.fill + 1 ∧
              (t.dev.stream j).state = if 80 ≤ y.fill + 1 then .locked else .filling) ∧
            (y.state = .locked ∨ y.state = .holding → (t.dev.stream j).state = .locked)) ∧
          (delivered j = false →
            (y.state = .filling → t.dev.stream j = { y with fill := 0 }) ∧
            (y.state = .locked → t.dev.stream j = { y with state := .holding, missing := 1 }) ∧
            (y.state = .holding → y.missing < 3 → t.dev.stream j = { y with missing := y.missing + 1 }) ∧
            (y.state = .holding → 3 ≤ y.missing → t.dev.stream j = { y with state := .lost, fill := 0, missing := 0 }))) ∧
        (∀ q, let w := (s.dev.quantity q).window
          (∀ n : Fin 79, tget (t.dev.quantity q).window ⟨n.val, by omega⟩ = tget w ⟨n.val + 1, by omega⟩) ∧
          (s.dev.tab.streamOf q = none → tget (t.dev.quantity q).window 79 = {}) ∧
          (∀ j, s.dev.tab.streamOf q = some j →
            (delivered j = true → tget (t.dev.quantity q).window 79 = tget (tget ring.slots 0).values q) ∧
            (delivered j = false → (t.dev.stream j).state = .holding → tget (t.dev.quantity q).window 79
              = { value := (tget w 0).value
                  quality := if (tget w 0).quality = .invalid then .invalid else .held }) ∧
            (delivered j = false → (t.dev.stream j).state ≠ .holding → tget (t.dev.quantity q).window 79 = {})))))

/-! ## Expiries -/

/-- THE MODEL'S CHOICE (notes/assumptions/5.md), for no rule speaks of an expiry that has not come: a command that waits for a
timer, or for its request to be served, changes nothing while it is not due (the timers and requests are those of R95, R108, R110,
R113, R124, R135, R137, R138, R145, R148, R155, R157, R168, R175, R176, R200, R210, R212). -/
def Obligations.NotDueChangesNothing : Prop :=
  ∀ (c : Instr) (s : State), awaited c = true → c ∉ s.dev.due → s.dev.work = [] → exec c s = .next s

/-- Silence: every stream in FILLING, LOCKED or HOLDING is LOST, the ring becomes IDLE and its timer stops, and STREAMS_SILENT
is listed; streams in other states stay as they are (R32, R33, R34, R214). `d` is the device before what the loss reports to the
other blocks is taken, and lists the error however full the list was; with no stream LOCKED or HOLDING there is nothing to take,
and the state after the command lists it. -/
def Obligations.SilenceLosesStreams : Prop :=
  ∀ (s : State) (e : Count32), s.power = .running → s.dev.sau.silence = some e → reached e s.dev.now = true →
    ∃ t, exec .silenceTimeout s = .next t ∧ t.nv = s.nv ∧ t.dev.sau.ring = none ∧ t.dev.sau.silence = none ∧
      (∀ i, (s.dev.stream i).state.active = true → (t.dev.stream i).state = .lost ∧ (t.dev.stream i).fill = 0) ∧
      (∀ i, (s.dev.stream i).state.active = false → t.dev.stream i = s.dev.stream i) ∧
      (s.dev.work = [] → ∃ d : Dev, t = s.withDev d.flush ∧ errorListed d.mgt.errors .streamsSilent 0xFFFF = true) ∧
      ((∀ i, (s.dev.stream i).state ≠ .locked ∧ (s.dev.stream i).state ≠ .holding) →
        errorListed t.dev.mgt.errors .streamsSilent 0xFFFF = true)

/-- A status age of 3000 ms makes a breaker's reported position UNKNOWN and stops the age; the rest of what the bay reported
stands (R95). A controller age of 2000 ms: the engine state is UNKNOWN, the set is not ready, and the age stops; auto or
manual stands (R155). -/
def Obligations.AgesExpire : Prop :=
  (∀ (s : State) (b : Fin 24), s.power = .running → (s.dev.breaker b).aged = false →
      reached (after (s.dev.breaker b).ageFrom 3000) s.dev.now = true →
      ∃ t, exec (.statusAgeExpiry b) s = .next t ∧ t.nv = s.nv ∧
        (t.dev.breaker b).reported = .unknown ∧ (t.dev.breaker b).aged = true ∧
        (t.dev.breaker b).spring = (s.dev.breaker b).spring ∧ (t.dev.breaker b).inLocal = (s.dev.breaker b).inLocal ∧
        (∀ x, x ≠ b → (t.dev.breaker x).reported = (s.dev.breaker x).reported) ∧ t.dev.meas = s.dev.meas) ∧
  (∀ (s : State) (g : Fin 6), s.power = .running → (s.dev.gen g).aged = false →
      reached (after (s.dev.gen g).ageFrom 2000) s.dev.now = true →
      ∃ t, exec (.controllerAgeExpiry g) s = .next t ∧ t.nv = s.nv ∧
        (t.dev.gen g).engine = .unknown ∧ (t.dev.gen g).ready = false ∧ (t.dev.gen g).aged = true ∧
        (t.dev.gen g).manual = (s.dev.gen g).manual ∧
        (∀ x, x ≠ g → (t.dev.gen x).engine = (s.dev.gen x).engine ∧ (t.dev.gen x).aged = (s.dev.gen x).aged) ∧
        t.dev.meas = s.dev.meas)

/-- A repeat of a record: the next copy carries the repeat number one higher, held at 255, and waits in the record's queue in
the place of its earlier copy; the next repeat falls due 4, 8, 16, 32, then 50 ms later (R14, R108). -/
def Obligations.CommandRepeatSent : Prop :=
  ∀ (s : State) (b : Fin 24) (r : CmdRecord), s.power = .running → (s.dev.breaker b).record = some r →
    reached r.nextRepeat s.dev.now = true → s.dev.portBusy .p1 →
    let r' : CmdRecord := { r with
      repeatNo := min 255 (r.repeatNo + 1)
      nextRepeat := after r.nextRepeat
        (match r.repeatNo with | 0 => 4 | 1 => 8 | 2 => 16 | 3 => 32 | _ => 50) }
    ∃ t, exec (.commandRepeat b) s = .next t ∧ t.dev.breaker b = { s.dev.breaker b with record := some r' } ∧
      (∀ x, x ≠ b → t.dev.breaker x = s.dev.breaker x) ∧ t.dev.shell = s.dev.shell ∧
      (r.prot = true → t.dev.lnk.protQueue = putKey b (s.dev.commandFrame b r') s.dev.lnk.protQueue ∧
        t.dev.lnk.ctrlQueue = dropKey b s.dev.lnk.ctrlQueue) ∧
      (r.prot = false → t.dev.lnk.ctrlQueue = putKey b (s.dev.commandFrame b r') s.dev.lnk.ctrlQueue ∧
        t.dev.lnk.protQueue = dropKey b s.dev.lnk.protQueue)

/-- An operate timer ends its record FAILED and OPERATE_TIMEOUT is listed for the breaker; where the record's breaker-failure
timer still runs, breaker failure then operates: BF_OPERATED is listed for the breaker, and every used backup is locked out and
has a protection OPEN (R110, R112, R114). A breaker-failure timer: the same, and the record is marked so that its failure
operates once (R113, R114). That every protection record is an OPEN, which each step keeps (O5), is assumed of the state. The
requests leave measurement, protection, changeover and paralleling alone. `d` is the device before what is reported is taken; a
protection record that no block waits for reports nothing. -/
def Obligations.OperateAndFailureTimers : Prop :=
  (∀ (s : State) (b : Fin 24) (r : CmdRecord), s.power = .running → (s.dev.breaker b).record = some r →
      reached r.opEnd s.dev.now = true → r.bfEnd = none ∨ r.bfOperated = true → s.dev.mgt.errors.length < 15 → s.dev.work = [] →
      ∃ d : Dev, exec (.operateTimerExpiry b) s = .next (s.withDev d.flush) ∧
        (d.breaker b).record = none ∧ (d.breaker b).outcome = .failed ∧
        errorListed d.mgt.errors .operateTimeout b.val = true ∧
        (∀ x, x ≠ b → d.breaker x = s.dev.breaker x) ∧ d.shell = s.dev.shell ∧
        (r.prot = true → r.tellChg = false → (s.dev.breaker b).releasePending = false → d.work = [])) ∧
  (∀ (s : State) (b : Fin 24) (r : CmdRecord) (e : Count32), s.power = .running → (s.dev.breaker b).record = some r →
      reached r.opEnd s.dev.now = true → r.bfEnd = some e → r.bfOperated = false → s.dev.mgt.errors.length < 14 →
      (∀ x, (s.dev.breaker x).protOpens) →
      ∃ d : Dev, exec (.operateTimerExpiry b) s = .next (s.withDev d.flush) ∧
        errorListed d.mgt.errors .operateTimeout b.val = true ∧ errorListed d.mgt.errors .bfOperated b.val = true ∧
        (∀ x ∈ (s.dev.breakerCfg b).backupIds, d.locked x = true) ∧
        (∀ x ∈ (s.dev.breakerCfg b).backupIds, (s.dev.breakerCfg x).used = true →
          ∃ r', (d.breaker x).record = some r' ∧ r'.prot = true ∧ r'.action = .openIt) ∧
        (b ∉ (s.dev.breakerCfg b).backupIds → (d.breaker b).record = none ∧ (d.breaker b).outcome = .failed) ∧
        (∀ x, x ≠ b → x ∉ (s.dev.breakerCfg b).backupIds → d.breaker x = s.dev.breaker x) ∧
        d.meas = s.dev.meas ∧ d.prot = s.dev.prot ∧ d.chg = s.dev.chg ∧ d.par = s.dev.par) ∧
  (∀ (s : State) (b : Fin 24) (r : CmdRecord) (e : Count32), s.power = .running → (s.dev.breaker b).record = some r →
      r.bfEnd = some e → r.bfOperated = false → reached e s.dev.now = true → (∀ x, (s.dev.breaker x).protOpens) →
      ∃ d : Dev, exec (.breakerFailureTimerExpiry b) s = .next (s.withDev d.flush) ∧
        (s.dev.mgt.errors.length < 15 → errorListed d.mgt.errors .bfOperated b.val = true) ∧
        (∀ x ∈ (s.dev.breakerCfg b).backupIds, d.locked x = true) ∧
        (∀ x ∈ (s.dev.breakerCfg b).backupIds, (s.dev.breakerCfg x).used = true →
          ∃ r', (d.breaker x).record = some r' ∧ r'.prot = true ∧ r'.action = .openIt) ∧
        (b ∉ (s.dev.breakerCfg b).backupIds → (d.breaker b).record = some { r with bfOperated := true }) ∧
        (∀ x, x ≠ b → x ∉ (s.dev.breakerCfg b).backupIds → d.breaker x = s.dev.breaker x) ∧
        d.meas = s.dev.meas ∧ d.prot = s.dev.prot ∧ d.chg = s.dev.chg ∧ d.par = s.dev.par)

/-- A loss timer makes its source FAILED and a return timer HEALTHY, at the clock and the instant of the moment, and the cause
is taken by CHG's state: in INHIBITED nothing follows from it; in IDLE, with no cause pending, the scheme that the cause table
names for it is run, from the stored scheme as it stands (R124, R126, R127, R129, R132). `d` is the device before what is
reported is taken. -/
def Obligations.SourceTimerExpires : Prop :=
  ∀ (s : State) (u : Utility) (loss : Bool) (e : Count32), s.power = .running → (s.dev.chg.source u).timer = .running loss e →
    reached e s.dev.now = true →
    ∃ d : Dev, exec (.sourceTimerExpiry u) s = .next (s.withDev d.flush) ∧
      d.chg.source u = { s.dev.chg.source u with
        state := if loss then .failed else .healthy, timer := .none, changeMs := s.dev.now, changeInst := s.dev.sau.inst } ∧
      d.chg.source u.other = s.dev.chg.source u.other ∧ d.meas = s.dev.meas ∧ d.prot = s.dev.prot ∧
      (s.dev.chg.state = .inhibited → d.chg.state = .inhibited ∧ d.chg.transfer = s.dev.chg.transfer) ∧
      (∀ (c : Cause) (x : Fin 8), s.dev.chg.state = .idle → s.dev.chg.pending = [] →
        c = (if loss then (if s.dev.sourceDown u.other then .lossBoth else if u = .a then .lossA else .lossB)
             else if u = .a then .returnA else .returnB) →
        s.dev.causeScheme c = some x →
        ∃ t, d.chg.transfer = some t ∧ t.scheme = x ∧ t.cause = some c ∧ t.entry = tget s.dev.tab.schemes x ∧
          t.startMs = s.dev.now ∧ t.startInst = s.dev.sau.inst)

/-- The deadlines of a step: waiting for its breaker, of its synchronising, and of an AWAIT with no other way on. The scheme
ends FAILED with the reason, its claims asked back and the pending causes discarded (R135, R137, R138, R140). A DELAY that has
run, and an AWAIT that has not come true and names another step, go on: with an END without a follow-on there and no cause
pending, the scheme ends DONE and CHG is IDLE (R138, R139). `d` is the device before what is reported is taken. -/
def Obligations.StepDeadlines : Prop :=
  (∀ (s : State) (t : Transfer) (c : Instr) (reason : FailReason), s.power = .running → s.dev.running = some t →
      (c = .stepWaitExpiry ∧ t.phase = .waitingBreaker ∧ reached? t.waitEnd s.dev.now = true ∧
          reason = (if t.busy then .breakerBusy else .claimConflict)) ∨
        (c = .stepSyncTimeout ∧ t.step.kind = 3 ∧ reached? t.deadline s.dev.now = true ∧ reason = .syncTimeout) ∨
        (c = .awaitDeadline ∧ t.step.kind = 4 ∧ t.phase = .waiting ∧ t.step.link = 255 ∧
          reached? t.deadline s.dev.now = true ∧ reason = .awaitTimeout) →
      ∃ d : Dev, exec c s = .next (s.withDev d.flush) ∧ d.chg.state = .failed ∧ d.chg.claims = [] ∧ d.chg.pending = [] ∧
        d.chg.transfer = some { t with result := .failed, reason := reason, refusal := .none } ∧
        d.par.busWaiting = none ∧ d.meas = s.dev.meas ∧ d.prot = s.dev.prot ∧ d.tab = s.dev.tab) ∧
  (∀ (s : State) (t : Transfer) (c : Instr) (i : Fin 32), s.power = .running → s.dev.running = some t →
      reached? t.deadline s.dev.now = true →
      (c = .delayDeadline ∧ t.step.kind = 5 ∧ i.val = t.index + 1) ∨
        (c = .awaitDeadline ∧ t.step.kind = 4 ∧ t.phase = .waiting ∧ t.step.link ≠ 255 ∧ i.val = t.step.link) →
      (tget t.entry.steps i).kind = 8 → (tget t.entry.steps i).cond = 0 → s.dev.chg.pending = [] →
      ∃ d : Dev, exec c s = .next (s.withDev d.flush) ∧ d.chg.state = .idle ∧ d.chg.claims = [] ∧ d.chg.pending = [] ∧
        (∃ t', d.chg.transfer = some t' ∧ t'.result = .done ∧ t'.index = i.val ∧ t'.scheme = t.scheme ∧
          t'.stepStart = s.dev.now) ∧
        d.tab = s.dev.tab ∧ d.par = s.dev.par ∧ d.meas = s.dev.meas)

/-- The overlap record (R143 to R145). Its timer's expiry: the error is listed, the record is gone, a running scheme that made it ends
FAILED with OVERLAP, and a named used trip breaker has a protection-class OPEN for CHG, not armed for breaker failure: a record of
its own that waits for a busy P1, or the protection record that it joins; with no used trip breaker named nothing is opened. A
CLOSE_SYNC step's record that ends DONE makes the overlap record from the step's two source sets, where both are non-empty and
share no source, with the scheme's limit and trip breaker, from that moment; another end makes none. At a position report the record
stays while the source set of its breaker's side-1 bus shares a source with each recorded set, and is gone otherwise. `d` is the
device before what is reported last is taken; the OPEN supersedes a record that is no protection's, as `overlapOpen` asks for it. -/
def Obligations.OverlapTimerExpires : Prop :=
  (∀ (s : State) (o : Overlap), s.power = .running → s.dev.chg.overlap = some o → reached o.expiry s.dev.now = true →
    s.dev.work = [] → s.dev.mgt.errors.length < 14 →
    (∀ (b : Fin 24) (r : CmdRecord), o.tripBreaker = b.val → (s.dev.breakerCfg b).used = true →
      (s.dev.breaker b).record = some r → r.prot = true) →
    ∃ d : Dev, exec .overlapTimerExpiry s = .next (s.withDev d.flush) ∧ d.chg.overlap = none ∧
      (∀ t, s.dev.running = some t → t.scheme = o.scheme →
        errorListed d.mgt.errors .overlapExceeded o.breaker.val = true ∧
        d.chg.state = .failed ∧ d.chg.transfer = some { t with result := .failed, reason := .overlap, refusal := .none }) ∧
      (s.dev.running = none → errorListed d.mgt.errors .overlapExceeded o.breaker.val = true ∧
        d.chg.state = s.dev.chg.state ∧ d.chg.transfer = s.dev.chg.transfer) ∧
      ((∀ t, s.dev.running = some t → t.scheme = o.scheme) →
        (∀ b, ¬ (o.tripBreaker = b.val ∧ (s.dev.breakerCfg b).used = true) →
          (d.breaker b).record = (s.dev.breaker b).record) ∧
        (∀ b : Fin 24, o.tripBreaker = b.val → (s.dev.breakerCfg b).used = true →
          (∀ r, (s.dev.breaker b).record = some r → (d.breaker b).record = some { r with tellChg := true }) ∧
          ((s.dev.breaker b).record = none →
            let r : CmdRecord :=
              { id := (s.dev.breaker b).nextId, action := .openIt, prot := true, requester := .block .chg, issue := s.dev.now
                repeatNo := 0, nextRepeat := after s.dev.now 2, opEnd := after s.dev.now (s.dev.breakerCfg b).timeout
                bfEnd := none, bfOperated := false, tellChg := true }
            (d.breaker b).record = some r ∧
            (s.dev.portBusy .p1 → (b, s.dev.commandFrame b r) ∈ d.lnk.protQueue))))) ∧
  (∀ (d : Dev) (t : Transfer) (b : Fin 24) (id : Count16) (e : RecordEnd), d.running = some t → t.phase = .requested →
    t.cmdId = some id → t.step.breaker = some b → t.step.kind = 3 →
    (e = .done → t.set1 ≠ {} → t.set2 ≠ {} →
      ¬ ((t.set1.a = true ∧ t.set2.a = true) ∨ (t.set1.b = true ∧ t.set2.b = true) ∨ (t.set1.gen = true ∧ t.set2.gen = true)) →
      (d.chgRecordEnded b id e).chg.overlap = some
        { breaker := b, set1 := t.set1, set2 := t.set2, scheme := t.scheme, limit := t.entry.limit
          tripBreaker := t.entry.tripBreaker, start := d.now, expiry := after d.now t.entry.limit }) ∧
    (e ≠ .done ∨ t.set1 = {} ∨ t.set2 = {} ∨
        (t.set1.a = true ∧ t.set2.a = true) ∨ (t.set1.b = true ∧ t.set2.b = true) ∨ (t.set1.gen = true ∧ t.set2.gen = true) →
      (d.chgRecordEnded b id e).chg.overlap = d.chg.overlap)) ∧
  (∀ (d : Dev) (b : Fin 24) (o : Overlap), d.chg.overlap = some o →
    let x := d.sideSet (d.breakerCfg o.breaker).bus1
    let shares := fun (y : SourceSet) => (x.a = true ∧ y.a = true) ∨ (x.b = true ∧ y.b = true) ∨ (x.gen = true ∧ y.gen = true)
    (shares o.set1 → shares o.set2 → (d.chgPosition b).chg.overlap = some o) ∧
    (¬ (shares o.set1 ∧ shares o.set2) → (d.chgPosition b).chg.overlap = none)) ∧
  (∀ (d : Dev) (o : Overlap) (b : Fin 24) (r : CmdRecord), o.tripBreaker = b.val → (d.breakerCfg b).used = true →
    (d.breaker b).record = some r → r.prot = false →
    ((d.overlapOpen o).breaker b).outcome = .superseded ∧
    ((d.overlapOpen o).breaker b).record = some
      { id := (d.breaker b).nextId, action := .openIt, prot := true, requester := .block .chg, issue := d.now
        repeatNo := 0, nextRepeat := after d.now 2, opEnd := after d.now (d.breakerCfg b).timeout
        bfEnd := none, bfOperated := false, tellChg := true })

/-- Settling ends when every enabled stream is LOCKED or LOST and every used breaker has reported, or after 5000 ms: PAR is
told and its periods begin at the next multiple of 100 ms of the clock, and CHG leaves SETTLING for INHIBITED, with the
inhibit flag or in SERVICE mode, or else for IDLE, where no source is UNHEALTHY (R148, R176, R180). `d` is the device before
what is reported is taken. -/
def Obligations.SettlingEnds : Prop :=
  ∀ s : State, s.power = .running → s.dev.chg.state = .settling →
    s.dev.settled = true ∨ reached (after 0 5000) s.dev.now = true →
    (∀ u, s.dev.judgement u ≠ .unhealthy) → (∀ u, (s.dev.chg.source u).state = .unknown) →
    s.dev.now.toNat + 100 < 2 ^ 32 →
    ∃ d : Dev, exec .settlingEnd s = .next (s.withDev d.flush) ∧
      d.chg.state = (if s.dev.chg.inhibit = true ∨ s.dev.mode = .service then .inhibited else .idle) ∧
      d.par.settled = true ∧ d.par.periods = 0 ∧ d.par.firstPeriod.toNat = (s.dev.now.toNat / 100 + 1) * 100 ∧
      (∀ u, s.dev.judgement u = .healthy → (d.chg.source u).state = .healthy) ∧
      (∀ u, s.dev.judgement u = .undetermined → (d.chg.source u).state = .unknown) ∧ d.meas = s.dev.meas

/-- A start timer and a sync timer fail their set with START and SYNC: its biases and targets are 0 and the timer stops; a
cooldown timer takes its set to STOPPING when the engine runs on (R157, R168, R175, R178; `d` is the device before what is reported
is taken). The dead-bus grant, as PAR judges it: nothing while it is held, the generator bus is not DEAD or carries a transfer block,
or no set waits; else the set of lowest rank in DEAD_BUS_WAIT has it, and where SWM can accept the CLOSE of its breaker the set is
CLOSING under it and CAP is triggered (R161, R162). The synchroniser: an instant's tests and values of the served request; from the
second instant in a row on a result, which goes to CHG for a bus request, and for a set to SWM, whose acceptance makes the set
CLOSING (R165, R166). A free synchroniser takes the bus request first, then the waiting set of lowest rank, past those whose side
buses are blocked; one that serves a request keeps it (R164). -/
def Obligations.GeneratorTimersExpire : Prop :=
  (∀ (s : State) (g : Fin 6), s.power = .running → reached? (s.dev.gen g).timer s.dev.now = true →
    ((s.dev.gen g).state = .starting → ∃ d : Dev, exec (.startTimerExpiry g) s = .next (s.withDev d.flush) ∧
      (d.gen g).state = .failed ∧ (d.gen g).reason = .start ∧ (d.gen g).timer = none ∧ (d.gen g).speed = 0 ∧
      (d.gen g).volt = 0 ∧ (d.gen g).load = 0 ∧ (d.gen g).reactive = 0 ∧ (∀ x, x ≠ g → d.gen x = s.dev.gen x) ∧
      d.meas = s.dev.meas ∧ d.chg = s.dev.chg) ∧
    ((s.dev.gen g).state.inSync = true → ∃ d : Dev, exec (.syncTimerExpiry g) s = .next (s.withDev d.flush) ∧
      (d.gen g).state = .failed ∧ (d.gen g).reason = .sync ∧ (d.gen g).timer = none ∧ (d.gen g).speed = 0 ∧
      (d.gen g).volt = 0 ∧ (d.gen g).load = 0 ∧ (d.gen g).reactive = 0 ∧ (∀ x, x ≠ g → d.gen x = s.dev.gen x) ∧
      d.meas = s.dev.meas ∧ d.chg = s.dev.chg) ∧
    ((s.dev.gen g).state = .cooldown → (s.dev.gen g).engine = .running →
      ∃ d : Dev, exec (.cooldownTimerExpiry g) s = .next (s.withDev d.flush) ∧
        (d.gen g).state = .stopping ∧ (d.gen g).timer = none ∧ (∀ x, x ≠ g → d.gen x = s.dev.gen x) ∧
        d.meas = s.dev.meas ∧ d.chg = s.dev.chg)) ∧
  (∀ (d : Dev),
    (d.par.grant.isSome = true ∨ d.genBusState ≠ .dead ∨ (∃ y, d.genBus = some y ∧ (d.busCfg y).block ≠ 0) ∨
        (∀ g, (d.genCfg g).used = true → (d.gen g).state ≠ .deadBusWait) → d.judgeGrant = d) ∧
    (∀ (g : Fin 6) (b : Fin 24), d.par.grant = none → d.genBusState = .dead →
      (∀ y, d.genBus = some y → (d.busCfg y).block = 0) → (d.genCfg g).used = true → (d.gen g).state = .deadBusWait →
      1 ≤ (d.genCfg g).rank → (d.genCfg g).rank ≤ 6 →
      (∀ k, k ≠ g → (d.genCfg k).used = true → (d.gen k).state = .deadBusWait → (d.genCfg g).rank < (d.genCfg k).rank) →
      d.genBreaker g = some b → d.takesClose b → (d.sides b).1 ≠ .indeterminate → (d.sides b).2 ≠ .indeterminate →
      ¬ ((d.sides b).1 = .live ∧ (d.sides b).2 = .live) →
      d.judgeGrant.par.grant = some g ∧ d.judgeGrant.closedBy g b d)) ∧
  (∀ (d : Dev) (r : SyncReq), d.par.sync.served = some r →
    let y := d.par.sync
    let ref := d.phaseAVoltage (d.reqRefGroup r)
    let inc := d.phaseAVoltage (d.reqInGroup r)
    let fRef := d.deviation (d.reqRefGroup r)
    let fIn := d.deviation (d.reqInGroup r)
    let slip := fIn.1 - fRef.1
    let dv : Int := (ref.2.1 : Int) - inc.2.1
    let vector := vectorWindow ref.1 inc.1 ref.2.2 inc.2.2 d.tab.par.angle
    let holds := fRef.2 = true ∧ fIn.2 = true ∧ 0 ≤ slip ∧ slip ≤ d.tab.par.slipWindow ∧ vector = .inside ∧
      ref.2.2.valid = true ∧ inc.2.2.valid = true ∧ -(d.tab.par.voltWindow : Int) ≤ dv ∧ dv ≤ d.tab.par.voltWindow
    let next := fun (met : Nat) (lastMet : Count32) => { y with
      met := met, slip := slip, slipOk := fRef.2 && fIn.2, dv := dv, voltOk := ref.2.2.valid && inc.2.2.valid, vector := vector
      lastMet := lastMet }
    d.examineSync = d ∧
    (¬ holds → d.syncInstant = { d with par := { d.par with sync := next 0 y.lastMet } }) ∧
    (holds → y.met = 0 ∨ y.accepted = true →
      d.syncInstant = { d with par := { d.par with sync := next (y.met + 1) d.sau.inst } }) ∧
    (∀ q, r = .bus q → holds → 1 ≤ y.met → y.accepted = false →
      d.syncInstant = { d with par := { d.par with sync := next (y.met + 1) d.sau.inst }
                               work := d.work ++ [.syncResult q.breaker y.lastMet d.sau.inst] }) ∧
    (∀ g b, r = .gen g → holds → 1 ≤ y.met → y.accepted = false → d.genBreaker g = some b → d.takesClose b →
      (d.sides b).1 ≠ .indeterminate → (d.sides b).2 ≠ .indeterminate →
      d.syncInstant.par.sync = { next (y.met + 1) d.sau.inst with accepted := true } ∧ d.syncInstant.closedBy g b d)) ∧
  (∀ (d : Dev), d.par.sync.served = none →
    (∀ q, d.par.busWaiting = some q → d.sideBlocked q.breaker = false →
      d.examineSync.par.sync.served = some (.bus q) ∧ d.examineSync.par.sync.met = 0 ∧ d.examineSync.par.busWaiting = none ∧
      d.examineSync.par.gens = d.par.gens) ∧
    (∀ g b, (∀ q, d.par.busWaiting = some q → d.sideBlocked q.breaker = true) → (d.genCfg g).used = true →
      1 ≤ (d.genCfg g).rank → (d.genCfg g).rank ≤ 6 → (d.gen g).state = .syncWait → d.genBreaker g = some b →
      d.sideBlocked b = false →
      (∀ k, k ≠ g → (d.genCfg k).used = true → (d.gen k).state = .syncWait → (d.genCfg k).rank ≤ (d.genCfg g).rank →
        ∃ c, d.genBreaker k = some c ∧ d.sideBlocked c = true) →
      d.examineSync.par.sync.served = some (.gen g) ∧ d.examineSync.par.sync.met = 0 ∧
      d.examineSync.gen g = { d.gen g with state := .syncing } ∧ (∀ k, k ≠ g → d.examineSync.gen k = d.gen k)))

/-- A setpoint period: the islanded determination is made afresh and the next period falls due 100 ms later; every set that
runs has, at the period's end, a SETPOINT frame with run and its biases waiting for a busy P1, and every STOPPING set one that
stops it (R15, R170, R176). THE MODEL'S CHOICE (notes/assumptions/58.md): without a generator bus it determines islanded. `d` is
the device before what is reported is taken. -/
def Obligations.SetpointPeriodServed : Prop :=
  ∀ s : State, s.power = .running → s.dev.par.settled = true → reached s.dev.par.periodDue s.dev.now = true →
    s.dev.portBusy .p1 →
    ∃ d : Dev, exec .setpointPeriod s = .next (s.withDev d.flush) ∧ d.par.periods = s.dev.par.periods + 1 ∧
      d.par.firstPeriod = s.dev.par.firstPeriod ∧ d.par.periodDue = s.dev.par.periodDue + 100 ∧
      d.par.islanded = s.dev.genBusIslanded ∧ d.chg = s.dev.chg ∧ d.meas = s.dev.meas ∧
      (∀ g, (d.gen g).state.running = true →
        (g, d.setpointFrame g true (d.gen g).speed (d.gen g).volt) ∈ d.lnk.setpoints) ∧
      (∀ g, (d.gen g).state = .stopping → (g, d.setpointFrame g false 0 0) ∈ d.lnk.setpoints)

/-! ## Store writes -/

/-- A WRITE whose store write succeeds: the store and the blocks' tables take its records, and its request is answered OK. Of
the blocks' tables only the causes may change further, where the write's reports end a scheme (R24, R42, R49, R64, R74, R78,
R92, R98, R120, R127, R129, R153, R185, R205 to R207). `d` is the device before the response. A WRITE whose store write fails
changes no stored table, in the store or in the blocks, lists STORE_FAULT for the area and is answered NOT_WRITABLE; a
completion for which no WRITE waits changes nothing (R205). Both answers are owed: no ABORT stops one before it is placed
(R217). -/
def Obligations.WriteCompletions : Prop :=
  (∀ (s : State) (c : Instr) (q : Request) (a first : Nat) (recs : List (List Int)), s.power = .running →
      s.dev.mgt.service = some ⟨q, .storing a first recs⟩ → writeEnd c = some (a, true) →
      ∃ d : Dev, exec c s = .next { s with nv := s.nv.writeRecords a first recs, dev := d.respond q { result := 0, owed := true } } ∧
        { d.tab with causes := s.dev.tab.causes } = { s.dev.tab.writeRecords a first recs with causes := s.dev.tab.causes } ∧
        (a ∉ [3, 6, 9, 11] → s.dev.work = [] → d.tab = s.dev.tab.writeRecords a first recs) ∧
        d.now = s.dev.now ∧ d.mode = s.dev.mode) ∧
  (∀ (s : State) (c : Instr) (a : Nat) (ok : Bool), s.power = .running → writeEnd c = some (a, ok) →
      (∀ q first recs, s.dev.mgt.service = some ⟨q, .storing a first recs⟩ → ok = false → s.dev.mgt.errors.length < 15 →
        ∃ d : Dev, exec c s = .next (s.withDev (d.respond q { result := 3, owed := true })) ∧ d.bare = s.dev.bare ∧
          errorListed d.mgt.errors .storeFault a = true ∧ d.mgt.queue = s.dev.mgt.queue) ∧
      ((∀ q first recs, s.dev.mgt.service ≠ some ⟨q, .storing a first recs⟩) → exec c s = .next s))

/-- What a successful write restarts: a stream entry to SEEKING or OFF with its counters 0, a group's results, an element's
reset state with its forcing released and its operate count 0, the reports of a breaker and of a controller whose address has
changed (R24, R49, R64, R92, R153). THE MODEL'S CHOICES: that a group's frequency reference stands (notes/assumptions/40.md),
and that an element's included members are gone (notes/assumptions/17.md). -/
def Obligations.WrittenEntriesRestart : Prop :=
  ∀ (s : State) (c : Instr) (q : Request) (a first : Nat) (recs : List (List Int)), s.power = .running →
    s.dev.mgt.service = some ⟨q, .storing a first recs⟩ → writeEnd c = some (a, true) →
    ∃ t, exec c s = .next t ∧
      (a = 3 → ∀ i : Fin 24, first ≤ i.val → i.val < first + recs.length →
        t.dev.stream i = { state := if (t.dev.streamCfg i).enable = 1 then .seeking else .off }) ∧
      (a = 5 → ∀ g : Fin 24, first ≤ g.val → g.val < first + recs.length →
        t.dev.group g = { ref := (s.dev.group g).ref, lastAt := (s.dev.group g).lastAt }) ∧
      (a = 6 → ∀ e : Fin 32, first ≤ e.val → e.val < first + recs.length →
        t.dev.element e = { lastAt := (s.dev.element e).lastAt }) ∧
      (a = 9 → ∀ b : Fin 24, first ≤ b.val → b.val < first + recs.length →
        (t.dev.breakerCfg b).addr ≠ (s.dev.breakerCfg b).addr →
        (t.dev.breaker b).reported = .unknown ∧ (t.dev.breaker b).inLocal = true ∧ (t.dev.breaker b).spring = false ∧
        (t.dev.breaker b).ageFrom = s.dev.now ∧ (t.dev.breaker b).aged = false ∧
        (t.dev.breaker b).forced = (s.dev.breaker b).forced) ∧
      (a = 14 → ∀ g : Fin 6, first ≤ g.val → g.val < first + recs.length →
        (t.dev.genCfg g).addr ≠ (s.dev.genCfg g).addr →
        (t.dev.gen g).engine = .unknown ∧ (t.dev.gen g).ready = false ∧ (t.dev.gen g).manual = true ∧
        (t.dev.gen g).ageFrom = s.dev.now ∧ (t.dev.gen g).aged = false)

/-- The oldest state store write ends: the store takes the lockout, transfer block or cause it carries, or STORE_FAULT is
listed for its area, and it no longer waits; with none in progress nothing changes (R97, R101, R127, R205). That the writes
end in the order in which they began is the model's choice (notes/assumptions/11.md). -/
def Obligations.StateStoreWriteEnds : Prop :=
  ∀ (s : State) (ok : Bool), s.power = .running →
    (s.dev.swm.jobs = [] → exec (.stateStoreComplete ok) s = .next s) ∧
    (∀ j js, s.dev.swm.jobs = j :: js →
      (ok = true → exec (.stateStoreComplete ok) s = .next { s with
        nv := (match j with
          | .lockout b v => { s.nv with breakers := tmod s.nv.breakers b (fun e => { e with lockout := v }) }
          | .block y v => { s.nv with buses := tmod s.nv.buses y (fun e => { e with block := v }) }
          | .cause c v => { s.nv with causes := tset s.nv.causes c v })
        dev := { s.dev with swm := { s.dev.swm with jobs := js } } }) ∧
      (ok = false → s.dev.mgt.errors.length < 15 → s.dev.work = [] → ∃ t, exec (.stateStoreComplete ok) s = .next t ∧
        t.nv = s.nv ∧ t.dev.tab = s.dev.tab ∧ t.dev.swm = { s.dev.swm with jobs := js } ∧
        errorListed t.dev.mgt.errors .storeFault (match j with | .lockout _ _ => 9 | .block _ _ => 10 | .cause _ _ => 12) = true))

/-- READ, which gives the blocks' copy of a record (notes/assumptions/8.md), and WRITE, as it takes a record before the fields
that an entry does not use are cleared (notes/assumptions/32.md), carry a record alike: whatever a stored record holds, if each
of its values fits its field, the bytes that READ gives of it are the bytes from which WRITE takes it (R22, R42, R49, R63, R74,
R78, R91, R98, R120, R127, R128, R151, R152, R184, R202 to R207). The byte layout of records is the model's in part
(notes/assumptions/12.md). -/
def Obligations.ReadThenWriteKeepsTables : Prop :=
  ∀ (d : Dev) (a i : Nat), (2 ≤ a ∧ a ≤ 15) ∨ a = 20 → i < areaCount a → (∀ x ∈ (d.areaFields a i).flatten, x.fits) →
    d.tab.writeRecord a i (readRecord a i (d.recordBytes a i)) = d.tab

/-! ## Requests -/

/-- A request at arrival on either port. One that is no ABORT joins the tail of a queue that holds fewer than four; with four
waiting it is answered BUSY, at once from an idle port, or its reply is dropped and counted while another waits. An ABORT from an
idle port is answered at once with the number of its originator's waiting requests, which leave the queue, and whether it stopped the
originator's response, which a WRITE whose store write has begun and whose answer is not placed is not; the originator's selection
ends, and a segment in the other port's slot stands (R9, R16, R199, R200, R217). A request at the head whose parameters are shorter
than its code's fixed part is answered LENGTH and does nothing else; its taking into service ends its originator's selection (R200,
R201, R210). An OPERATE without a matching selection, of any target, is answered NOT_SELECTED and does nothing else (R211). That
the level of MAINT_IN arrives with the frame is the model's choice (notes/assumptions/18.md). -/
def Obligations.RequestsTurnedAway : Prop :=
  (∀ (s : State) (f : EthFrame) (m : Bool) (p : Port) (code tag : Nat) (params : List Byte), s.power = .running →
      (s.dev.lnk.port p).up = true → f.checkOk = true → f.etherType = 0x88B5 → 10 ≤ f.payload.length →
      field f.payload 2 2 ≠ s.dev.tab.device.station → field f.payload 0 2 = s.dev.tab.device.station →
      content (Config.modulus s.dev.f60) (parseHeader f.payload) f.payload = .body (.request code tag params) →
      let q : Request := { port := p, src := field f.payload 2 2, code := code, tag := tag, params := params }
      let seq := (s.dev.lnk.port p).seq
      let d : Dev := ({ s.dev with prot := { s.dev.prot with maintPin := m } } : Dev).modCounters p
        (fun c => { c with rxGood := min (c.rxGood + 1) 4294967295 })
      (code ≠ 13 → s.dev.mgt.queue.length < 4 → exec (.frameReception p f m) s
        = .next (s.withDev (d.modMgt (fun x => { x with queue := x.queue ++ [q] })))) ∧
      (code ≠ 13 → 4 ≤ s.dev.mgt.queue.length → s.dev.portIdle p → exec (.frameReception p f m) s
        = .next (s.withDev (d.modPort p (fun r =>
            { r with tx := some ((s.dev.segmentFrame q 7 0 true []).toEth p seq), seq := seq + 1 })))) ∧
      (code ≠ 13 → 4 ≤ s.dev.mgt.queue.length → (s.dev.lnk.port p).reply.isSome = true → exec (.frameReception p f m) s
        = .next (s.withDev (d.modMgt (fun x => { x with dropped := min (x.dropped + 1) 4294967295 })))) ∧
      (code = 13 → s.dev.portIdle p →
        let mine := s.dev.mgt.queue.filter (fun x => decide (x.src = q.src))
        let stops := ∃ x, s.dev.mgt.service = some x ∧ x.req.src = q.src ∧
          (x.stage = .acting ∨ ∃ r, x.stage = .sending r ∧ (r.owed = true → r.placed = true))
        let answer := fun (stopped : Nat) => s.dev.segmentFrame q 0 0 true (beBytes 1 mine.length ++ beBytes 1 stopped)
        ∃ t, exec (.frameReception p f m) s = .next t ∧ t.nv = s.nv ∧ t.dev.bare = d.bare ∧
          t.dev.mgt.queue = s.dev.mgt.queue.filter (fun x => decide (x.src ≠ q.src)) ∧
          (∀ x, s.dev.mgt.selection = some x → x.owner = q.src → t.dev.mgt.selection = none) ∧
          ((∀ x, s.dev.mgt.selection = some x → x.owner ≠ q.src) → t.dev.mgt.selection = s.dev.mgt.selection) ∧
          (t.dev.lnk.port p).seq = seq + 1 ∧
          (stops → t.dev.mgt.service = none ∧ (t.dev.lnk.port p).tx = some ((answer 1).toEth p seq)) ∧
          (¬ stops → t.dev.mgt.service = s.dev.mgt.service ∧ (t.dev.lnk.port p).tx = some ((answer 0).toEth p seq)) ∧
          (t.dev.lnk.port p.other).slot.map SlotEntry.frame = (s.dev.lnk.port p.other).slot.map SlotEntry.frame)) ∧
  (∀ (s : State) (q : Request) (rest : List Request), s.power = .running → s.dev.mgt.service = none →
      s.dev.mgt.queue = q :: rest → q.params.length < fixedLength q.code →
      exec (rowCommand q.row) s = .next (s.withDev (((s.dev.modMgt (fun m => { m with
        queue := rest, service := some ⟨q, .acting⟩, selection := if m.selection.any (fun x => decide (x.owner = q.src)) then none
                                                                else m.selection })).answer q 2)))) ∧
  (∀ (s : State) (q : Request) (rest : List Request) (n : Nat), s.serves q rest (10, n) →
      (∀ x, s.dev.mgt.selection = some x → x.owner = q.src → x.target = q.target → x.object ≠ q.object) →
      exec (rowCommand (10, n)) s = .next (s.withDev ((s.dev.taking q rest).answer q 10)))

/-- IDENT, ECHO, READ and WATCH_READ are answered with the identity (its last byte, 60 or 50, is the model's reading:
notes/assumptions/22.md), their parameters, the records of a range that the areas hold, and the watched fields; a READ of
another range is answered RANGE; the device otherwise stays as it is (R202, R203, R208, R217). -/
def Obligations.ReadingRequestsAnswered : Prop :=
  ∀ (s : State) (q : Request) (rest : List Request) (n : Nat), s.serves q rest (n, 0) →
    let d := s.dev.taking q rest
    (n = 1 → exec .ident s = .next (s.withDev (d.answerData q ([0x0F, 0x31, 0x1C, 0x8E, 1]
      ++ beBytes 2 s.dev.tab.device.station ++ [if s.dev.nomf then 1 else 0, if s.dev.mgw then 1 else 0]
      ++ [if s.dev.f60 then 60 else 50])))) ∧
    (n = 2 → exec .echo s = .next (s.withDev (d.answerData q q.params))) ∧
    (n = 3 → ∀ a first count, a = field q.params 0 1 → first = field q.params 1 2 → count = field q.params 3 2 →
      (a ≤ 20 ∧ 1 ≤ count ∧ first + count ≤ areaCount a → exec .read s = .next (s.withDev (d.respond q
        { result := 0, items := (List.range count).map (fun k => .record a (first + k)) }))) ∧
      (¬ (a ≤ 20 ∧ 1 ≤ count ∧ first + count ≤ areaCount a) → exec .read s = .next (s.withDev (d.answer q 1)))) ∧
    (n = 6 → exec .watchRead s = .next (s.withDev (d.respond q
      { result := 0, items := s.dev.mgt.watch.map (fun w => .watch w.area w.idx w.field) })))

/-- What an ECHO sends from an idle port: data of up to 1024 bytes leaves as one segment marked last, and the request leaves
service; longer data leaves as a first segment of 1024 bytes while the second, marked last, waits in the port's slot (R5, R16,
R19, R200, R217). -/
def Obligations.EchoSegments : Prop :=
  ∀ (s : State) (q : Request) (rest : List Request), s.serves q rest (2, 0) → s.dev.portIdle q.port →
    q.params.length ≤ 1487 →
    ∃ t, exec .echo s = .next t ∧ t.nv = s.nv ∧ t.dev.bare = s.dev.bare ∧ t.dev.mgt.queue = rest ∧
      (t.dev.lnk.port q.port).seq = (s.dev.lnk.port q.port).seq + 1 ∧
      (q.params.length ≤ 1024 → t.dev.mgt.service = none ∧ (t.dev.lnk.port q.port).slot = none ∧
        (t.dev.lnk.port q.port).tx = some
          ((s.dev.segmentFrame q 0 0 true q.params).toEth q.port (s.dev.lnk.port q.port).seq)) ∧
      (1024 < q.params.length →
        (t.dev.lnk.port q.port).tx = some
          ((s.dev.segmentFrame q 0 0 false (q.params.take 1024)).toEth q.port (s.dev.lnk.port q.port).seq) ∧
        (t.dev.lnk.port q.port).slot.map SlotEntry.frame = some (s.dev.segmentFrame q 0 1 true (q.params.drop 1024)) ∧
        t.dev.mgt.service.isSome = true)

/-- A WRITE that passes its checks goes to the store, and the tables keep their records until the store has taken them; one that
fails a check is answered with that check's result (R204, R205). No WRITE goes to the store without MGW asserted, to a read-only
area, in another mode than the area's, or to records that the area lacks. The checks are, in this order: RANGE, the area and the
records; LENGTH, the bytes after the count; NOT_WRITABLE, the area and the mode; WRITE_DISABLED, MGW; LOCKED, an element entry
that the lock word's set holds; INVALID, the owning chapter's field checks (`writeOk`; notes/assumptions/53.md for those of
STREAMS); BUSY, a written curve of a picked up element, a written breaker with a record or a claim, the running scheme, a
written set that is not STOPPED, or the channel list while CAP is in POST (R74, R92, R129, R153, R185, R204, R207). -/
def Obligations.WriteGoesToStoreOrIsRefused : Prop :=
  ∀ (s : State) (q : Request) (rest : List Request) (a first count : Nat), s.serves q rest (4, 0) →
    a = field q.params 0 1 → first = field q.params 1 2 → count = field q.params 3 2 →
    let r := s.dev.checkWrite a first count (q.params.drop 5)
    (r = 0 → exec .write s = .next (s.withDev ((s.dev.taking q rest).setService
        (some ⟨q, .storing a first (readRecords a first count (q.params.drop 5))⟩))) ∧
      s.dev.mgw = true ∧ (a ∈ [6, 7, 11, 12, 13, 15] ∨ (s.dev.mode = .service ∧ (a ∈ [2, 3, 4, 5, 8, 9, 10, 14, 20]))) ∧
      1 ≤ count ∧ first + count ≤ areaCount a ∧ q.params.length = 5 + count * areaSize a) ∧
    (r ≠ 0 → exec .write s = .next (s.withDev ((s.dev.taking q rest).answer q r))) ∧
    (let recs := readRecords a first count (q.params.drop 5)
      let answers := fun (k : Nat) => exec .write s = .next (s.withDev ((s.dev.taking q rest).answer q k))
      let lock := s.dev.tab.lock
      let covers := fun (k : Nat) => first ≤ k ∧ k < first + count
      let picked := fun (e : Nat) => if lock.fromTop = 0 then e < lock.span else 32 ≤ e + lock.span
      let within := a ≤ 20 ∧ 1 ≤ count ∧ first + count ≤ areaCount a
      let exact := q.params.length = 5 + count * areaSize a
      let permitted := a ∈ [6, 7, 11, 12, 13, 15] ∨ (s.dev.mode = .service ∧ a ∈ [2, 3, 4, 5, 8, 9, 10, 14, 20])
      let locked := a = 6 ∧ ∃ e, covers e ∧ (lock.complement = 0 ↔ picked e)
      let valid := writeOk s.dev.tab a first recs = true
      let busy :=
        (a = 7 ∧ ∃ e : Fin 32, (s.dev.elementCfg e).enable = 1 ∧ (s.dev.elementCfg e).kind = 0 ∧
          covers (s.dev.elementCfg e).curve ∧ (s.dev.element e).picked = true) ∨
        (a = 9 ∧ ∃ b : Fin 24, covers b.val ∧ ((s.dev.breaker b).record.isSome = true ∨ (s.dev.breaker b).claim.isSome = true)) ∨
        (a = 13 ∧ ∃ t, s.dev.running = some t ∧ covers t.scheme.val) ∨
        (a = 14 ∧ ∃ g : Fin 6, covers g.val ∧ (s.dev.gen g).state ≠ .stopped) ∨
        (a = 15 ∧ s.dev.cap.state = .post ∧ (s.dev.tab.writeRecords 15 first recs).capture.used ≠ s.dev.tab.capture.used)
      (¬ within → answers 1) ∧
      (within → ¬ exact → answers 2) ∧
      (within → exact → ¬ permitted → answers 3) ∧
      (within → exact → permitted → s.dev.mgw = false → answers 4) ∧
      (within → exact → permitted → s.dev.mgw = true → locked → answers 5) ∧
      (within → exact → permitted → s.dev.mgw = true → ¬ locked → ¬ valid → answers 6) ∧
      (within → exact → permitted → s.dev.mgw = true → ¬ locked → valid → busy → answers 7) ∧
      (within → exact → permitted → s.dev.mgw = true → ¬ locked → valid → ¬ busy → r = 0))

/-- WATCH_SET takes a list of 1 to 64 items that each name a field of a record of an area, in place of the one before it;
another is refused, and the watch list stands: LENGTH where the bytes are not exactly the items of the count, INVALID for the
count, RANGE for an item (R201, R208); the fields of a record are numbered as notes/assumptions/63.md says. THE MODEL'S CHOICE
(notes/assumptions/52.md): where several of these hold, LENGTH stands before INVALID and INVALID before RANGE. -/
def Obligations.WatchSetTakesList : Prop :=
  ∀ (s : State) (q : Request) (rest : List Request) (n : Nat), s.serves q rest (5, 0) → n = field q.params 0 1 →
    let items := watchItems n (q.params.drop 1)
    let d := s.dev.taking q rest
    (q.params.length ≠ 1 + 4 * n → exec .watchSet s = .next (s.withDev (d.answer q 2))) ∧
    (q.params.length = 1 + 4 * n → n < 1 ∨ 64 < n → exec .watchSet s = .next (s.withDev (d.answer q 6))) ∧
    (q.params.length = 1 + 4 * n → 1 ≤ n → n ≤ 64 → items.all d.watchable = false →
      exec .watchSet s = .next (s.withDev (d.answer q 1))) ∧
    (q.params.length = 1 + 4 * n → 1 ≤ n → n ≤ 64 → items.all d.watchable = true →
      exec .watchSet s = .next (s.withDev ((d.modMgt (fun m => { m with watch := items })).answer q 0)))

/-- FORCE of one object in TEST mode with MGW asserted: a breaker's overlay or an element's forced state is what the code
says; in another mode it is answered NOT_WRITABLE, without MGW WRITE_DISABLED, and nothing is forced. FORCE_CLEAR_ALL releases
every forcing (R82, R83, R96, R209). -/
def Obligations.ForcingTakesEffect : Prop :=
  ∀ (s : State) (q : Request) (rest : List Request) (n : Nat), s.serves q rest (n, 0) →
    let d := s.dev.taking q rest
    (n = 7 → field q.params 0 1 = 1 → q.params.length = 4 → s.dev.mode = .test → s.dev.mgw = true →
      (∀ b : Fin 24, field q.params 1 1 = 0 → field q.params 2 1 = b.val → field q.params 3 1 ≤ 3 →
        ∃ t, exec .force s = .next t ∧ t.nv = s.nv ∧ (∀ e, t.dev.element e = s.dev.element e) ∧
          (∀ x, x ≠ b → (t.dev.breaker x).forced = (s.dev.breaker x).forced) ∧
          (t.dev.breaker b).forced = (match field q.params 3 1 with
            | 0 => (s.dev.breaker b).forced | 1 => .none | 2 => .openPos | _ => .closed)) ∧
      (∀ e : Fin 32, field q.params 1 1 = 1 → field q.params 2 1 = e.val → (s.dev.elementCfg e).enable = 1 →
        field q.params 3 1 ∈ [0, 1, 4, 5] →
        ∃ t, exec .force s = .next t ∧ t.nv = s.nv ∧ (∀ x, x ≠ e → t.dev.element x = s.dev.element x) ∧
          (t.dev.element e).forced = (match field q.params 3 1 with
            | 0 => (s.dev.element e).forced | 1 => .none | 4 => .operated | _ => .blocked) ∧
          (field q.params 3 1 = 5 → (s.dev.element e).forced ≠ .blocked → (t.dev.element e).operated = false) ∧
          (field q.params 3 1 = 4 → (s.dev.element e).forced ≠ .operated → (t.dev.element e).operated = true))) ∧
    (n = 7 → q.params.length = 1 + 3 * field q.params 0 1 → s.dev.mode ≠ .test →
      exec .force s = .next (s.withDev (d.answer q 3))) ∧
    (n = 7 → q.params.length = 1 + 3 * field q.params 0 1 → s.dev.mode = .test → s.dev.mgw = false →
      exec .force s = .next (s.withDev (d.answer q 4))) ∧
    (n = 8 → ∃ t, exec .forceClearAll s = .next t ∧ t.nv = s.nv ∧ (∀ b, (t.dev.breaker b).forced = .none) ∧
      (∀ e, (t.dev.element e).forced = .none) ∧
      (∀ e, (s.dev.element e).forced = .none → t.dev.element e = s.dev.element e))

/-- SELECT takes the selection for its originator, unless another holds it; CANCEL ends its originator's; the selection
timeout ends it after 30 s (R210). THE MODEL'S CHOICE (notes/assumptions/65.md): a SELECT of an unknown target is INVALID though
another originator holds the selection. -/
def Obligations.SelectionTakenAndEnded : Prop :=
  ∀ (s : State),
    (∀ (q : Request) (rest : List Request), s.serves q rest (9, 0) →
      let d := s.dev.taking q rest
      (12 < q.target → exec .select s = .next (s.withDev (d.answer q 6))) ∧
      (q.target ≤ 12 → (∃ x, s.dev.mgt.selection = some x ∧ x.owner ≠ q.src) →
        exec .select s = .next (s.withDev (d.answer q 11))) ∧
      (q.target ≤ 12 → (∀ x, s.dev.mgt.selection = some x → x.owner = q.src) →
        exec .select s = .next (s.withDev ((d.modMgt (fun m => { m with
          selection := some { owner := q.src, target := q.target, object := q.object, since := s.dev.now } })).answer q 0)))) ∧
    (∀ (q : Request) (rest : List Request), s.serves q rest (11, 0) →
      exec .cancel s = .next (s.withDev ((s.dev.modMgt (fun m => { m with
        queue := rest, service := some ⟨q, .acting⟩
        selection := if m.selection.any (fun x => decide (x.owner = q.src)) then none else m.selection })).answer q 0))) ∧
    (∀ x, s.power = .running → s.dev.mgt.selection = some x → reached (after x.since 30000) s.dev.now = true →
      exec .selectionTimeout s = .next (s.withDev (s.dev.modMgt (fun m => { m with selection := none }))))

/-! ## Operate targets -/

/-- OPERATE MODE: an object above 2 is INVALID; the mode in force gives OK and changes nothing; a change is refused BUSY while
a breaker has an active record, a scheme runs, the overlap record is present, or, into SERVICE, a set is neither STOPPED nor
FAILED. Else the mode changes: leaving TEST releases every forcing, SERVICE resets every element and takes an IDLE CHG to
INHIBITED (R89, R96, R118, R147, R181, R212). `x` is the device before what is reported is taken. -/
def Obligations.ModeChanges : Prop :=
  ∀ (s : State) (q : Request) (rest : List Request) (n : Nat), s.operates q rest 0 n →
    let d := s.dev.taking q rest
    (2 < n → exec .mode s = .next (s.withDev (d.answer q 6))) ∧
    (∀ m, m = (if n = 0 then Mode.inService else if n = 1 then .test else .service) → n ≤ 2 →
      let busy := (∃ b, (s.dev.breaker b).record.isSome = true) ∨ s.dev.chg.state = .running ∨ s.dev.chg.overlap.isSome = true ∨
        (m = .service ∧ ∃ g, (s.dev.gen g).state ≠ .stopped ∧ (s.dev.gen g).state ≠ .failed)
      (m = s.dev.mode → exec .mode s = .next (s.withDev (d.answer q 0))) ∧
      (m ≠ s.dev.mode → busy → exec .mode s = .next (s.withDev (d.answer q 7))) ∧
      (m ≠ s.dev.mode → ¬ busy → ∃ x : Dev, exec .mode s = .next (s.withDev (x.flush.answer q 0)) ∧ x.mode = m ∧
        x.tab = s.dev.tab ∧ x.meas = s.dev.meas ∧ x.sau = s.dev.sau ∧ x.par = s.dev.par ∧
        (s.dev.mode = .test → (∀ b, (x.breaker b).forced = .none) ∧ ∀ e, (x.element e).forced = .none) ∧
        (m = .service → (∀ e, (x.element e).operated = false ∧ (x.element e).picked = false ∧ (x.element e).integrator = 0) ∧
          (s.dev.chg.state = .idle → x.chg.state = .inhibited)) ∧
        (s.dev.mode = .service → s.dev.chg.state = .inhibited → s.dev.chg.inhibit = false → x.chg.state = .idle) ∧
        (s.dev.mode ≠ .test → m ≠ .service → x.prot = s.dev.prot)))

/-- MAINT_ON sets the maintenance flag and MAINT_OFF clears it, each OK in every mode; RESTART is answered OK, and from an
idle port its response leaves at once and the reset is due. An object other than 0 is INVALID (R81, R211, R212). -/
def Obligations.MaintenanceAndRestart : Prop :=
  ∀ (s : State) (q : Request) (rest : List Request) (target n : Nat), s.operates q rest target n →
    let d := s.dev.taking q rest
    (n ≠ 0 → target = 1 ∨ target = 2 ∨ target = 3 →
      exec (rowCommand (10, target)) s = .next (s.withDev (d.answer q 6))) ∧
    (n = 0 → target = 1 →
      exec .maintOn s = .next (s.withDev (({ d with prot := { d.prot with maintFlag := true } } : Dev).answer q 0))) ∧
    (n = 0 → target = 2 →
      exec .maintOff s = .next (s.withDev (({ d with prot := { d.prot with maintFlag := false } } : Dev).answer q 0))) ∧
    (n = 0 → target = 3 → exec .restart s = .next (s.withDev (d.respond q { result := 0, restart := true }))) ∧
    (n = 0 → target = 3 → s.dev.portIdle q.port → ∃ t, exec .restart s = .next t ∧ t.power = .running ∧
      t.dev.mgt.restartDue = true ∧ (t.dev.lnk.port q.port).tx = some
        ((s.dev.segmentFrame q 0 0 true []).toEth q.port (s.dev.lnk.port q.port).seq))

/-- An accepted BREAKER_OPEN or BREAKER_CLOSE: MGT holds the claim, the breaker has the record that R107 states with the next
command id, its COMMAND frame waits for a busy P1 in the control queue, and the response gives the id. A CLOSE is accepted
where no lockout, local, spring, position or permissive stands against it and its sides are known and not both LIVE (R104 to
R107, R115). -/
def Obligations.BreakerOperated : Prop :=
  ∀ (s : State) (q : Request) (rest : List Request) (target : Nat) (b : Fin 24) (a : Action), s.operates q rest target b.val →
    target = (match a with | .openIt => 4 | .closeIt => 5) → (s.dev.breakerCfg b).used = true →
    (s.dev.breaker b).record = none → (s.dev.breaker b).claim = none ∨ (s.dev.breaker b).claim = some .mgt →
    (a = .closeIt → s.dev.locked b = false ∧ (s.dev.breaker b).inLocal = false ∧ (s.dev.breaker b).spring = true ∧
      s.dev.position b = .openPos ∧ s.dev.permissive b = true ∧ (s.dev.sides b).1 ≠ .indeterminate ∧
      (s.dev.sides b).2 ≠ .indeterminate ∧ ¬ ((s.dev.sides b).1 = .live ∧ (s.dev.sides b).2 = .live)) →
    let r : CmdRecord :=
      { id := (s.dev.breaker b).nextId, action := a, prot := false, requester := .block .mgt, issue := s.dev.now, repeatNo := 0
        nextRepeat := after s.dev.now 2, opEnd := after s.dev.now (s.dev.breakerCfg b).timeout, bfEnd := none
        bfOperated := false, tellChg := false }
    ∃ d : Dev, exec (rowCommand (10, target)) s = .next (s.withDev (d.answerData q (beBytes 2 (s.dev.breaker b).nextId.toNat))) ∧
      d.breaker b = { s.dev.breaker b with
        claim := some .mgt, releasePending := false, nextId := (s.dev.breaker b).nextId + 1, record := some r } ∧
      (∀ x, x ≠ b → d.breaker x = s.dev.breaker x) ∧ d.shell = s.dev.shell ∧
      (s.dev.portBusy .p1 → d.lnk.ctrlQueue = putKey b (s.dev.commandFrame b r) s.dev.lnk.ctrlQueue)

/-- The refusals of BREAKER_OPEN and BREAKER_CLOSE: an object that names no breaker is INVALID, an unused breaker
NOT_PERMITTED, one that another block claims CLAIMED; any active record of a breaker that no other block claims BUSY; a CLOSE of such
a breaker that is locked out, in local, has no charged spring, is not OPEN, has a permissive that does not hold, or whose sides are
both LIVE or not known, NOT_PERMITTED. Nothing else changes (R102, R104 to R106, R115). The claim that a refused request took is
released again and its release reported, so that an unclaimed breaker is one for which nothing waits (`Dev.unawaited`). -/
def Obligations.BreakerOperateRefused : Prop :=
  ∀ (s : State) (q : Request) (rest : List Request) (target n : Nat), s.operates q rest target n → target = 4 ∨ target = 5 →
    let answers := fun (k : Nat) =>
      exec (rowCommand (10, target)) s = .next (s.withDev ((s.dev.taking q rest).answer q k))
    (24 ≤ n → answers 6) ∧
    (∀ b : Fin 24, n = b.val →
      let ours := ((s.dev.breaker b).claim = none ∧ s.dev.unawaited b) ∨ (s.dev.breaker b).claim = some .mgt
      ((s.dev.breakerCfg b).used = false → answers 9) ∧
      ((s.dev.breakerCfg b).used = true → (∃ h, (s.dev.breaker b).claim = some h ∧ h ≠ .mgt) → answers 8) ∧
      ((s.dev.breakerCfg b).used = true → ours → (s.dev.breaker b).record.isSome = true → answers 7) ∧
      ((s.dev.breakerCfg b).used = true → ours → (s.dev.breaker b).record = none → target = 5 →
        s.dev.locked b = true ∨ (s.dev.breaker b).inLocal = true ∨ (s.dev.breaker b).spring = false ∨
          s.dev.position b ≠ .openPos ∨ s.dev.permissive b = false ∨ (s.dev.sides b).1 = .indeterminate ∨
          (s.dev.sides b).2 = .indeterminate ∨ ((s.dev.sides b).1 = .live ∧ (s.dev.sides b).2 = .live) → answers 9))

/-- LOCKOUT_RESET and BLOCK_RESET: refused while an operated element would set the flag again, else the flag is clear, with a
store write begun where it was set; the store itself changes when that write ends (R85, R97, R101, R116, R117, R205). That the
write joins the tail of those in progress is the model's choice (notes/assumptions/11.md). -/
def Obligations.FlagsReset : Prop :=
  ∀ (s : State) (q : Request) (rest : List Request) (target n : Nat), s.operates q rest target n →
    let d := s.dev.taking q rest
    (target = 6 → 24 ≤ n → exec .lockoutReset s = .next (s.withDev (d.answer q 6))) ∧
    (target = 7 → 6 ≤ n → exec .blockReset s = .next (s.withDev (d.answer q 6))) ∧
    (∀ b : Fin 24, target = 6 → n = b.val →
      let holds := ∃ e, (s.dev.element e).operated = true ∧ (s.dev.elementCfg e).lockout = 1 ∧ b ∈ (s.dev.elementCfg e).tripIds
      (holds → exec .lockoutReset s = .next (s.withDev (d.answer q 9))) ∧
      (¬ holds → (s.dev.breakerCfg b).lockout = 0 → exec .lockoutReset s = .next (s.withDev (d.answer q 0))) ∧
      (¬ holds → (s.dev.breakerCfg b).lockout ≠ 0 → exec .lockoutReset s = .next (s.withDev (({ d with
        tab := { d.tab with breakers := tmod d.tab.breakers b (fun e => { e with lockout := 0 }) }
        swm := { d.swm with jobs := d.swm.jobs ++ [.lockout b 0] } } : Dev).answer q 0)))) ∧
    (∀ y : Fin 6, target = 7 → n = y.val →
      let holds := ∃ e, (s.dev.element e).operated = true ∧ (s.dev.elementCfg e).block = 1 ∧ y ∈ s.dev.blockBuses e
      (holds → exec .blockReset s = .next (s.withDev (d.answer q 9))) ∧
      (¬ holds → (s.dev.busCfg y).block = 0 → exec .blockReset s = .next (s.withDev (d.answer q 0))) ∧
      (¬ holds → (s.dev.busCfg y).block ≠ 0 → exec .blockReset s = .next (s.withDev (({ d with
        tab := { d.tab with buses := tmod d.tab.buses y (fun e => { e with block := 0 }) }
        swm := { d.swm with jobs := d.swm.jobs ++ [.block y 0] } } : Dev).answer q 0))))

/-- RUN_SCHEME: INVALID for no scheme, BUSY while one runs, NOT_PERMITTED in SETTLING, FAILED and INHIBITED. In IDLE with no cause
pending the stored scheme starts, whatever its first step: the transfer record is of that scheme as it stands, with cause MANUAL at
the clock and instant of the moment, CAP is triggered for it, and the request is answered OK after what the first steps report is
taken; a first step DELAY times its deadline, and nothing else is touched then (R128, R129, R131, R132, R138, R146, R188). `d'` is the
device before that. -/
def Obligations.RunSchemeStarts : Prop :=
  ∀ (s : State) (q : Request) (rest : List Request) (n : Nat), s.operates q rest 8 n →
    let d := s.dev.taking q rest
    (8 ≤ n → exec .runScheme s = .next (s.withDev (d.answer q 6))) ∧
    (∀ x : Fin 8, n = x.val →
      (s.dev.chg.state = .running → exec .runScheme s = .next (s.withDev (d.answer q 7))) ∧
      (s.dev.chg.state = .settling ∨ s.dev.chg.state = .failed ∨ s.dev.chg.state = .inhibited →
        exec .runScheme s = .next (s.withDev (d.answer q 9))) ∧
      (s.dev.chg.state = .idle → s.dev.chg.pending = [] →
        ∃ d' : Dev, exec .runScheme s = .next (s.withDev (d'.flush.answer q 0)) ∧
          (∃ tr, d'.chg.transfer = some tr ∧ tr.scheme = x ∧ tr.cause = none ∧ tr.startMs = s.dev.now ∧
            tr.startInst = s.dev.sau.inst ∧ tr.entry = tget s.dev.tab.schemes x) ∧
          d'.cap = s.dev.cap.trigger s.dev.tab.capture .transfer x.val s.dev.sau.inst s.dev.now ∧
          d'.prot = s.dev.prot ∧ d'.meas = s.dev.meas ∧ d'.sau = s.dev.sau) ∧
      (s.dev.chg.state = .idle → (tget (tget s.dev.tab.schemes x).steps 0).kind = 5 →
        ∃ d' : Dev, exec .runScheme s = .next (s.withDev (d'.answer q 0)) ∧ d'.chg = { s.dev.chg with
          state := .running
          transfer := some { scheme := x, cause := none, startMs := s.dev.now, startInst := s.dev.sau.inst
                             entry := tget s.dev.tab.schemes x, index := 0, stepStart := s.dev.now, phase := .timing
                             deadline := some (after s.dev.now (tget (tget s.dev.tab.schemes x).steps 0).time) } } ∧
          d'.tab = s.dev.tab ∧ d'.swm = s.dev.swm ∧ d'.par = s.dev.par ∧ d'.prot = s.dev.prot ∧ d'.meas = s.dev.meas))

/-- CHG_RESET, CHG_INHIBIT and CHG_RELEASE, by CHG's state: what becomes of the inhibit flag and the state (R146, R147). -/
def Obligations.ChangeoverInhibitAndReset : Prop :=
  ∀ (s : State) (q : Request) (rest : List Request) (target n : Nat), s.operates q rest target n →
    let d := s.dev.taking q rest
    let sets := fun (i : Bool) (x : ChgState) => ({ d with chg := { d.chg with inhibit := i, state := x } } : Dev)
    (n ≠ 0 → target = 9 ∨ target = 10 ∨ target = 11 →
      exec (rowCommand (10, target)) s = .next (s.withDev (d.answer q 6))) ∧
    (n = 0 → target = 9 → s.dev.chg.state ≠ .failed → exec .chgReset s = .next (s.withDev (d.answer q 0))) ∧
    (n = 0 → target = 9 → s.dev.chg.state = .failed → exec .chgReset s = .next (s.withDev ((sets s.dev.chg.inhibit
      (if s.dev.chg.inhibit = true ∨ s.dev.mode = .service then .inhibited else .idle)).answer q 0))) ∧
    (n = 0 → target = 10 → s.dev.chg.state = .running → exec .chgInhibit s = .next (s.withDev (d.answer q 7))) ∧
    (n = 0 → target = 10 → s.dev.chg.state ≠ .running → exec .chgInhibit s = .next (s.withDev
      ((sets true (if s.dev.chg.state = .idle then .inhibited else s.dev.chg.state)).answer q 0))) ∧
    (n = 0 → target = 11 → exec .chgRelease s = .next (s.withDev
      ((sets false (if s.dev.chg.state = .inhibited ∧ s.dev.mode ≠ .service then .idle else s.dev.chg.state)).answer q 0)))

/-- GEN_RESET: INVALID for no used set; OK and no change for a set that has not failed; NOT_PERMITTED while the engine of a
failed set runs; else the set is STOPPED, with no failure reason and its biases and targets 0, and demand is to be met again
(R160, R175, R179). `x` is the device before what is reported is taken. -/
def Obligations.GeneratorReset : Prop :=
  ∀ (s : State) (q : Request) (rest : List Request) (n : Nat), s.operates q rest 12 n →
    let d := s.dev.taking q rest
    (6 ≤ n → exec .genReset s = .next (s.withDev (d.answer q 6))) ∧
    (∀ g : Fin 6, n = g.val →
      ((s.dev.genCfg g).used = false → exec .genReset s = .next (s.withDev (d.answer q 6))) ∧
      ((s.dev.genCfg g).used = true → (s.dev.gen g).state ≠ .failed → exec .genReset s = .next (s.withDev (d.answer q 0))) ∧
      ((s.dev.genCfg g).used = true → (s.dev.gen g).state = .failed → (s.dev.gen g).engine = .running →
        exec .genReset s = .next (s.withDev (d.answer q 9))) ∧
      ((s.dev.genCfg g).used = true → (s.dev.gen g).state = .failed → (s.dev.gen g).engine ≠ .running →
        ∃ x : Dev, exec .genReset s = .next (s.withDev (x.flush.answer q 0)) ∧ (x.gen g).state = .stopped ∧
          (x.gen g).reason = .none ∧ (x.gen g).speed = 0 ∧ (x.gen g).volt = 0 ∧ (x.gen g).load = 0 ∧ (x.gen g).reactive = 0 ∧
          (∀ k, k ≠ g → x.gen k = s.dev.gen k) ∧ .meetDemand ∈ x.work ∧ x.chg = s.dev.chg ∧ x.meas = s.dev.meas))

/-! ## Errors and capture -/

/-- ERRORS gives the list as it stands; with the clear flag it then removes every MINOR entry, and in SERVICE mode every
entry; a flag other than 0 and 1 is INVALID. A request of no known code is answered UNKNOWN_REQUEST, and an OPERATE of no
known target NOT_SELECTED (R200, R211, R214, R215); that the command UNKNOWN_REQUEST serves that OPERATE too is the model's
choice (notes/assumptions/16.md). -/
def Obligations.ErrorsAndUnknownRequests : Prop :=
  ∀ (s : State) (q : Request) (rest : List Request),
    let d := s.dev.taking q rest
    let data := beBytes 1 s.dev.mgt.errors.length ++ s.dev.mgt.errors.flatMap (fun e =>
      beBytes 1 e.code.code ++ beBytes 2 e.subject ++ beBytes 1 (if e.code.major then 1 else 0) ++ beBytes 4 e.firstMs.toNat
        ++ beBytes 4 e.lastMs.toNat ++ beBytes 2 e.count)
    (s.serves q rest (12, 0) →
      (1 < field q.params 0 1 → exec .errors s = .next (s.withDev (d.answer q 6))) ∧
      (field q.params 0 1 = 0 → exec .errors s = .next (s.withDev (d.answerData q data))) ∧
      (field q.params 0 1 = 1 → exec .errors s = .next (s.withDev ((d.modMgt (fun m => { m with
        errors := if s.dev.mode = .service then [] else m.errors.filter (fun e => e.code.major) })).answerData q data)))) ∧
    (s.serves q rest (0, 0) → q.code ≠ 10 → exec .unknownRequest s = .next (s.withDev (d.answer q 13))) ∧
    (s.serves q rest (0, 0) → q.code = 10 → exec .unknownRequest s = .next (s.withDev (d.answer q 10)))

/-- CAPTURE_READ is decided by the record that lies in the area with the generation, its channels and its samples, and what it
gives is read as the segments are built; CAPTURE_LOCK and CAPTURE_UNLOCK set and clear the record's lock, whether or not it is
still being recorded (R194, R196). -/
def Obligations.CaptureReadAndLock : Prop :=
  ∀ (s : State) (q : Request) (rest : List Request) (n : Nat), s.serves q rest (n, 0) →
    let d := s.dev.taking q rest
    let a := field q.params 0 1
    let g := field q.params 1 2
    (n = 14 → (∀ r ∈ s.dev.cap.records, ¬ (r.area.val = a ∧ r.gen.toNat = g)) →
      exec .captureRead s = .next (s.withDev (d.answer q 12))) ∧
    (∀ r, n = 14 → s.dev.cap.find a g = some r →
      let ch := field q.params 3 1
      let first := field q.params 4 2
      let count := field q.params 6 2
      (r.recording = true → exec .captureRead s = .next (s.withDev (d.answer q 7))) ∧
      (r.recording = false → r.channels.length ≤ ch ∨ count = 0 ∨ 8 * r.length < first + count →
        exec .captureRead s = .next (s.withDev (d.answer q 1))) ∧
      (r.recording = false → ch < r.channels.length → count ≠ 0 → first + count ≤ 8 * r.length →
        exec .captureRead s = .next (s.withDev (d.respond q
          { result := 0, capture := some { area := a, gen := g, channel := ch, next := first, remaining := count } })))) ∧
    (n = 16 ∨ n = 17 → (∀ r ∈ s.dev.cap.records, ¬ (r.area.val = a ∧ r.gen.toNat = g)) →
      exec (rowCommand (n, 0)) s = .next (s.withDev (d.answer q 12))) ∧
    (∀ r, n = 16 ∨ n = 17 → s.dev.cap.find a g = some r →
      exec (rowCommand (n, 0)) s = .next (s.withDev (({ d with cap := { d.cap with records := d.cap.records.map (fun x =>
        if x.area = r.area then { x with locked := decide (n = 16) } else x) } } : Dev).answer q 0)))

/-- CAPTURE_DELETE: STALE for no such record, BUSY while it is being recorded, NOT_PERMITTED while it is locked; else the
record leaves the list, its words stand, and a STALLED CAP arms in its area with the next generation (R187, R195). -/
def Obligations.CaptureDeleted : Prop :=
  ∀ (s : State) (q : Request) (rest : List Request), s.serves q rest (15, 0) →
    let d := s.dev.taking q rest
    let a := field q.params 0 1
    let g := field q.params 1 2
    ((∀ r ∈ s.dev.cap.records, ¬ (r.area.val = a ∧ r.gen.toNat = g)) →
      exec .captureDelete s = .next (s.withDev (d.answer q 12))) ∧
    (∀ r, s.dev.cap.find a g = some r →
      (r.recording = true → exec .captureDelete s = .next (s.withDev (d.answer q 7))) ∧
      (r.recording = false → r.locked = true → exec .captureDelete s = .next (s.withDev (d.answer q 9))) ∧
      (r.recording = false → r.locked = false → s.dev.cap.state ≠ .stalled →
        exec .captureDelete s = .next (s.withDev (({ d with cap := { d.cap with
          records := d.cap.records.filter (fun x => decide (x.area ≠ r.area)) } } : Dev).answer q 0))) ∧
      (r.recording = false → r.locked = false → s.dev.cap.state = .stalled →
        exec .captureDelete s = .next (s.withDev (({ d with cap := { d.cap with
          records := d.cap.records.filter (fun x => decide (x.area ≠ r.area)), area := r.area
          gens := tset d.cap.gens r.area (tget d.cap.gens r.area + 1), row := 0, phase := 0, filled := 0, summaries := []
          state := .armed, lastArmed := some r.area } } : Dev).answer q 0))))

/-- CAPTURE_TRIGGER, with the manual enable set: ARMED it starts a record, with the settings of the moment and as many
row-sets before the trigger as are filled, up to the setting; in POST it joins the record being made, which grows to the post rows
after its row-set, up to the ring, counts it and lists it unless four are listed; it is answered with the record's area and
generation. With the enable clear, and in OFF and STALLED, it is refused NOT_PERMITTED and counted (R188 to R190, R197). -/
def Obligations.CaptureTriggered : Prop :=
  ∀ (s : State) (q : Request) (rest : List Request), s.serves q rest (18, 0) →
    let d := s.dev.taking q rest
    (s.dev.tab.capture.manual = 0 ∨ s.dev.cap.state = .off ∨ s.dev.cap.state = .stalled →
      exec .captureTrigger s = .next (s.withDev (({ d with cap := { d.cap with
        ignored := min (d.cap.ignored + 1) 4294967295 } } : Dev).answer q 9))) ∧
    (s.dev.tab.capture.manual ≠ 0 → s.dev.cap.state = .armed → (∀ r ∈ s.dev.cap.records, r.recording = false) →
      let g := tget s.dev.cap.gens s.dev.cap.area
      let pre := min s.dev.tab.capture.pre s.dev.cap.filled
      let rows := 32768 / (8 * s.dev.tab.capture.count)
      exec .captureTrigger s = .next (s.withDev (({ d with cap := { d.cap with
        state := .post
        records := d.cap.records ++ [{
          area := d.cap.area, gen := g, recording := true, firstInst := s.dev.sau.inst, firstMs := s.dev.now, count := 1
          triggers := [{ kind := .manual, subject := q.src, inst := s.dev.sau.inst, ms := s.dev.now
                         offset := pre * 8 + s.dev.cap.phase }]
          start := (s.dev.cap.row + rows - pre) % rows, length := pre + s.dev.tab.capture.post, pre := pre
          post := s.dev.tab.capture.post, channels := s.dev.tab.capture.used, worst := [], locked := false }] } } : Dev).answerData q
            (beBytes 1 s.dev.cap.area.val ++ beBytes 2 g.toNat)))) ∧
    (∀ r, s.dev.tab.capture.manual ≠ 0 → s.dev.cap.state = .post → r ∈ s.dev.cap.records → r.recording = true →
      (∀ x ∈ s.dev.cap.records, x.recording = true → x = r) →
      let rows := 32768 / (8 * r.channels.length)
      let t := (s.dev.cap.row + rows - r.start) % rows
      exec .captureTrigger s = .next (s.withDev (({ d with cap := { d.cap with
        records := d.cap.records.map (fun x => if x.recording = true then { r with
            length := min rows (max r.length (t + r.post))
            count := min (r.count + 1) 65535
            triggers := if r.triggers.length < 4 then r.triggers ++ [{
                kind := .manual, subject := q.src, inst := s.dev.sau.inst, ms := s.dev.now, offset := t * 8 + s.dev.cap.phase }]
              else r.triggers }
          else x) } } : Dev).answerData q (beBytes 1 r.area.val ++ beBytes 2 r.gen.toNat))))

/-- The capture memory gives back what was written last at an address, and a closed slot is written as one word for each
channel, at the write position of its area, an INVALID sample as 0; every other word stands (R183, R186). -/
def Obligations.CaptureMemoryReadsBack : Prop :=
  (∀ (m : List (Nat × CapWord)) (x y : Nat) (v : CapWord), Memory.wf m = true →
    memRead (memWrite m x v) y = if y = x then v else memRead m y) ∧
  (∀ (c : Cap) (channels : List Nat) (values : Vector Sample 96), Memory.wf c.mem = true →
    let base := c.area.val * 32768 + c.row * 8 * channels.length + c.phase
    (∀ (k : Fin channels.length) (q : Fin 96), channels[k] = q.val →
      memRead (c.writeSlot channels values).mem (base + 8 * k.val) =
        if (tget values q).quality = .invalid then 0 else BitVec.ofInt 32 (tget values q).value) ∧
    (∀ x, (∀ k : Fin channels.length, x ≠ base + 8 * k.val) → memRead (c.writeSlot channels values).mem x = memRead c.mem x))

/-! ## Arithmetic, measurement, protection, buses and sharing -/

/-- Division truncates toward zero, rounding is to the nearest with halves away from zero, square roots are floored, and the
counters stop at their greatest values (R1). -/
def Obligations.ArithmeticAsStated : Prop :=
  (∀ a b : Int, b ≠ 0 → (truncDiv a b).natAbs = a.natAbs / b.natAbs ∧
    ((a < 0) ≠ (b < 0) → truncDiv a b ≤ 0) ∧ ((a < 0) = (b < 0) → 0 ≤ truncDiv a b)) ∧
  (∀ (a : Int) (d : Nat), 0 < d →
    (0 ≤ a → -(d : Int) ≤ 2 * (a - roundDiv a d * d) ∧ 2 * (a - roundDiv a d * d) < d) ∧
    (a < 0 → -(d : Int) < 2 * (a - roundDiv a d * d) ∧ 2 * (a - roundDiv a d * d) ≤ d)) ∧
  (∀ n : Nat, n < 2 ^ 64 → isqrt n * isqrt n ≤ n ∧ n < (isqrt n + 1) * (isqrt n + 1)) ∧
  (∀ n : Nat, (n < 4294967295 → sat32 n = n + 1) ∧ (4294967295 ≤ n → sat32 n = 4294967295) ∧
    (n < 65535 → sat16 n = n + 1) ∧ (65535 ≤ n → sat16 n = 65535))

/-- A phasor instant's results: a quantity whose stream is out of service reads 0 and INVALID; a quantity in service has the two
rounded sums of its window with the cosine and sine coefficients, and its quality from its window, INVALID before HELD before GOOD;
M2 is the square of the magnitude and the RMS the floored root of its half; a group's power is INVALID, HELD or GOOD as the six
quantities it uses are (R44, R46 to R48, R51, R52). -/
def Obligations.InstantResults : Prop :=
  ∀ (d : Dev) (q : Fin 96),
    let r := d.measure.quantity q
    r.window = (d.quantity q).window ∧ r.lastAt = d.sau.inst ∧
    (d.computed q = false → r.phasor = {} ∧ r.rms = 0 ∧ r.quality = .invalid) ∧
    (r.m2 : Int) = r.phasor.re * r.phasor.re + r.phasor.im * r.phasor.im ∧
    (d.computed q = true →
      let sum := fun (c : List Int) =>
        ((List.finRange 80).map (fun i => (tget (d.quantity q).window i).value * c.getD i.val 0)).sum
      r.phasor = { re := roundDiv (sum cosTab) 1310720, im := roundDiv (-(sum sinTab)) 1310720 }) ∧
    (d.computed q = true →
      ((∃ i, (tget (d.quantity q).window i).quality = .invalid) → r.quality = .invalid) ∧
      ((∀ i, (tget (d.quantity q).window i).quality ≠ .invalid) →
        (∃ i, (tget (d.quantity q).window i).quality = .held ∨ (tget (d.quantity q).window i).quality = .questionable) →
        r.quality = .held) ∧
      ((∀ i, (tget (d.quantity q).window i).quality = .good) → r.quality = .good)) ∧
    (r.m2 < 2 ^ 64 → 2 * (r.rms * r.rms) ≤ r.m2 ∧ r.m2 < 2 * ((r.rms + 1) * (r.rms + 1))) ∧
    (∀ (g : Fin 24) (va vb vc ia ib ic : Fin 96), (d.groupCfg g).voltages = some (va, vb, vc) →
      (d.groupCfg g).currents = some (ia, ib, ic) →
      let used := [va, vb, vc, ia, ib, ic].map (fun x => (d.measure.quantity x).quality)
      (Quality.invalid ∈ used → (d.measure.group g).powerQ = .invalid) ∧
      (Quality.invalid ∉ used → Quality.held ∈ used → (d.measure.group g).powerQ = .held) ∧
      ((∀ x ∈ used, x = .good) → (d.measure.group g).powerQ = .good))

/-- An element that becomes operated counts its operation, has every used breaker of its trip set opened (by an OPEN where every
protection record is one, as each step keeps it, O5), sets their lockouts and the transfer blocks of its buses where its flags
ask for it, triggers CAP where its flag asks for it, and marks its source; it asks nothing of the sequencer, the paralleling
unit or the measurements itself (R84 to R86). An element at an instant: a disabled one changes nothing; one whose required
inputs are not there or INVALID is blocked, its integrator and counter held, and so is one whose zone fails the checks that a
WRITE of zones makes (R78, R90; as the tables stand at the instant, notes/assumptions/60.md); another picks up and drops out by
its kind's tests on the pickup in force, times by its integrator or its counter, and is operated while it is picked up once its
time is complete (R66, R67, R69 to R73, R75 to R77, R79 to R81). A forced element's blocked flag alone follows its inputs (R82).
The inverse-time index by the root of the floored ratio (R58). THE MODEL'S READING: a counter is held while its element is not
picked up (notes/assumptions/25.md). -/
def Obligations.OperatedElementActs : Prop :=
  (∀ (d : Dev) (e : Fin 32),
    let c := d.elementCfg e
    let x := d.operateElement e
    (x.element e).operated = true ∧ (x.element e).opCount = min ((d.element e).opCount + 1) 65535 ∧
    (∀ k, k ≠ e → x.element k = d.element k) ∧
    (∀ b ∈ c.tripIds, (d.breakerCfg b).used = true → ∃ r, (x.breaker b).record = some r ∧ r.prot = true) ∧
    ((∀ b, (d.breaker b).protOpens) → ∀ b ∈ c.tripIds, (d.breakerCfg b).used = true →
      ∃ r, (x.breaker b).record = some r ∧ r.prot = true ∧ r.action = .openIt) ∧
    (∀ b, b ∉ c.tripIds → x.breaker b = d.breaker b) ∧
    (c.lockout = 1 → ∀ b ∈ c.tripIds, x.locked b = true) ∧
    (c.lockout ≠ 1 → ∀ b, x.locked b = d.locked b) ∧
    (c.block = 1 → ∀ y ∈ d.blockBuses e, x.blocked y = true) ∧
    (c.block ≠ 1 → ∀ y, x.blocked y = d.blocked y) ∧
    (c.capture ≠ 1 → x.cap = d.cap) ∧
    (c.capture = 1 → x.cap = d.cap.trigger d.tab.capture .element e.val d.sau.inst d.now) ∧
    (∀ u, c.target = some u → .mark u true ∈ x.work) ∧
    x.chg = d.chg ∧ x.par = d.par ∧ x.meas = d.meas ∧ x.sau = d.sau ∧ x.mode = d.mode) ∧
  (∀ (d : Dev) (e : Fin 32) (p delay : Nat),
    let c := d.elementCfg e
    let r := d.element e
    let x := d.elementInstant e
    let r' := x.element e
    (d.maintenance c → p = c.maintPickup) → (¬ d.maintenance c → p = c.pickup.toNat) →
    (c.kind = 3 → delay = 1) → (c.kind ≠ 3 → d.maintenance c → delay = 0) →
    (c.kind ≠ 3 → ¬ d.maintenance c → delay = c.delay) →
    (c.enable = 0 → x = d) ∧ (∀ k, k ≠ e → x.element k = d.element k) ∧ x.meas = d.meas ∧ x.chg = d.chg ∧ x.par = d.par ∧
    (c.enable ≠ 0 → r'.lastAt = d.sau.inst ∧ r'.forced = r.forced) ∧
    (c.enable ≠ 0 → r.forced ≠ .none → (r'.blocked = true ↔ ¬ d.inputsHold c) ∧ r'.operated = r.operated ∧
      r'.picked = r.picked ∧ r'.integrator = r.integrator ∧ r'.counter = r.counter ∧ r'.opCount = r.opCount) ∧
    (c.enable ≠ 0 → r.forced = .none → ¬ d.inputsHold c → r'.blocked = true ∧ r'.picked = false ∧ r'.phase = .none ∧
      r'.operated = false ∧ r'.integrator = r.integrator ∧ r'.counter = r.counter ∧ r'.opCount = r.opCount) ∧
    (c.enable ≠ 0 → r.forced = .none → d.inputsHold c →
      r'.blocked = false ∧
      (r.picked = false → (r'.picked = true ↔ d.picksUp c p)) ∧
      (r.picked = true → (r'.picked = false ↔ d.dropsOut c p)) ∧
      (r'.picked = false → r'.phase = .none) ∧
      (c.kind ≠ 0 → r'.integrator = r.integrator ∧
        r'.counter = (if r.picked = false then r.counter else if r'.picked = true then min (r.counter + 1) 65535 else 0) ∧
        (r'.operated = true ↔ r'.picked = true ∧ (r.operated = true ∨ delay ≤ r'.counter))) ∧
      (c.kind = 0 → r'.counter = r.counter ∧
        (r'.picked = false → r'.integrator = if c.resetMode = 1 then r.integrator - c.decay else 0) ∧
        (∀ a b f, d.elementCurrents c = some (a, b, f) → r'.picked = true → r'.integrator = min 16777216 (r.integrator +
          min 16777216 (d.tab.curveEntry c.curve (inverseIndex (max (max (d.quantity a).m2 (d.quantity b).m2) (d.quantity f).m2)
            c.pickup.toNat) * 100 / c.dial))) ∧
        (r'.operated = true ↔ r'.picked = true ∧ (r.operated = true ∨ r'.integrator = 16777216))) ∧
      r'.opCount = (if r.operated = false ∧ r'.operated = true then min (r.opCount + 1) 65535 else r.opCount))) ∧
  (∀ m2 p k : Nat, 0 < p → 128 * m2 < 2 ^ 64 → k * k ≤ 128 * m2 / (p * p) → 128 * m2 / (p * p) < (k + 1) * (k + 1) →
    (512 ≤ k → inverseIndex m2 p = 47) ∧ (k < 16 → inverseIndex m2 p = 0) ∧
    (∀ e m, 4 ≤ e → e ≤ 8 → m < 8 → (8 + m) * 2 ^ (e - 3) ≤ k → k < (8 + m + 1) * 2 ^ (e - 3) →
      inverseIndex m2 p = 8 * (e - 4) + m))

/-- An invalidation between instants makes every bus and every generator side whose group's phase voltages it touches
INDETERMINATE, reports each bus that changes, and leaves the others; the next instant evaluates each bus afresh by its group and
its thresholds, and the generator side of each breaker of kind GEN by the group of the set that names it and the thresholds of
its side-1 bus: LIVE, DEAD or INDETERMINATE by the three voltages (R99, R100). That the reports join the tail of those not yet
taken, in bus order, is the model's choice (notes/assumptions/6.md and 54.md). -/
def Obligations.InvalidationOfBuses : Prop :=
  ∀ (d : Dev) (qs : List (Fin 96)),
    let x := d.invalidateBuses qs
    let touched := fun (g : Option (Fin 24)) => ∃ k, g = some k ∧ ∃ a b c, (d.groupCfg k).voltages = some (a, b, c) ∧
      (a ∈ qs ∨ b ∈ qs ∨ c ∈ qs)
    (∀ y, touched (d.busGroup y) → (x.bus y).state = .indeterminate) ∧
    (∀ y, ¬ touched (d.busGroup y) → x.bus y = d.bus y) ∧
    (∀ b, touched (d.genSideGroup b) → (x.breaker b).genSide = .indeterminate) ∧
    (∀ b, ¬ touched (d.genSideGroup b) → x.breaker b = d.breaker b) ∧
    x.work = d.work ++ ((List.finRange 6).filter (fun y => decide ((d.bus y).state ≠ (x.bus y).state))).map
      (fun y => .bus y (d.bus y).state) ∧
    (∀ y, (d.evaluateBuses.bus y).state = d.groupState (d.busGroup y) (d.busCfg y).live (d.busCfg y).dead ∧
      (d.evaluateBuses.bus y).lastAt = d.sau.inst) ∧
    (let every := fun (g : Option (Fin 24)) (test : Nat → Nat → Prop) => ∃ k a b c, g = some k ∧
        (d.groupCfg k).voltages = some (a, b, c) ∧
        ∀ q ∈ [a, b, c], (d.quantity q).quality.valid = true ∧ test (d.groupCfg k).nominal (d.quantity q).rms
      let judged := fun (g : Option (Fin 24)) (y : Fin 6) (state : BusState) =>
        let isLive := every g (fun nominal rms => (d.busCfg y).live * nominal ≤ 100 * rms)
        let isDead := every g (fun nominal rms => 100 * rms ≤ (d.busCfg y).dead * nominal)
        (isLive → state = .live) ∧ (¬ isLive → isDead → state = .dead) ∧ (¬ isLive → ¬ isDead → state = .indeterminate)
      (∀ y, judged (d.busGroup y) y (d.evaluateBuses.bus y).state) ∧
      (∀ b, (d.breakerCfg b).isGen = true →
        (∃ state, d.evaluateBuses.breaker b = { d.breaker b with genSide := state }) ∧
        (∀ y, (d.breakerCfg b).bus1 = some y →
          ((∀ g, (d.genCfg g).used = true → (d.genCfg g).breaker ≠ b.val) →
            (d.evaluateBuses.breaker b).genSide = .indeterminate) ∧
          (∀ g, (d.genCfg g).used = true → (d.genCfg g).breaker = b.val →
            (∀ k, (d.genCfg k).used = true → (d.genCfg k).breaker = b.val → k = g) →
            judged (d.genGroup g) y (d.evaluateBuses.breaker b).genSide)) ∧
        ((d.breakerCfg b).bus1 = none → (d.evaluateBuses.breaker b).genSide = .indeterminate)) ∧
      (∀ b, (d.breakerCfg b).isGen = false → d.evaluateBuses.breaker b = d.breaker b))

/-- A SETPOINT frame for a set with none waiting joins the tail of the setpoint queue; one for a set whose earlier frame waits
takes that frame's place; no frame of another set moves; the queue keeps one frame for a set and so never holds more than six;
and a frame that an idle P1 takes no longer waits (R15). -/
def Obligations.SetpointQueueOrder : Prop :=
  ∀ (d : Dev) (g : Fin 6) (f : OutFrame), (d.lnk.setpoints.map Prod.fst).Nodup →
    (d.portBusy .p1 →
      ((∀ x ∈ d.lnk.setpoints, x.1 ≠ g) → (d.enqueueSetpoint g f).lnk.setpoints = d.lnk.setpoints ++ [(g, f)]) ∧
      (∀ pre post old, d.lnk.setpoints = pre ++ [(g, old)] ++ post →
        (d.enqueueSetpoint g f).lnk.setpoints = pre ++ [(g, f)] ++ post)) ∧
    (d.portIdle .p1 → (d.enqueueSetpoint g f).lnk.setpoints = [] ∧
      (d.enqueueSetpoint g f).lnk.p1.tx = some (f.toEth .p1 d.lnk.p1.seq)) ∧
    ((d.enqueueSetpoint g f).lnk.setpoints.map Prod.fst).Nodup ∧ (d.enqueueSetpoint g f).lnk.setpoints.length ≤ 6

/-- Load sharing at a period. While the generator bus is islanded the ON_BUS sets with valid power take the load and reactive
targets that their ratings give them of the totals, truncated, a negative load target being 0; their speed and voltage biases
change by the truncated terms and the speed bias by the frequency term, which an ON_BUS set without valid power takes alone
(R170, R171). Paralleled with a utility, an ON_BUS set with valid power moves its speed bias toward its load target and nothing
else changes (R172). A set in another state is left alone. An UNLOADING set at 5 % of its rating or below is OPENING, its
breaker's OPEN asked for; else its target ramps down and its speed bias follows it (R173); an UNLOAD_HELD set keeps its target
(R174). A set that fails has its reason, no biases or targets and no timer, is listed GEN_FAILED, sends STOP unless it was for
MANUAL, and has its closed breaker opened (R178). Biases are held in their ranges (R154). THE MODEL'S READING: targets have no
other clamp than at 0, and the error e_i is formed from the target so clamped (notes/assumptions/20.md), and without a generator
bus it counts as islanded (notes/assumptions/58.md). -/
def Obligations.ReactiveSharing : Prop :=
  (∀ (d : Dev) (g : Fin 6),
    let onBus := (d.gen g).state = .onBus
    let valid := (d.genPower g).2.2 = true
    let shares := onBus ∧ valid
    let r := d.gen g
    let p := (d.genPower g).1
    let gl : Int := (d.tab.par.gl : Nat)
    let sets := d.onBusSets.filter (fun k => (d.genPower k).2.2)
    let rating : Int := (d.ratingInUse g : Nat)
    let ratings : Int := ((sets.map d.ratingInUse).sum : Nat)
    let load := max 0 (Int.tdiv ((sets.map (fun k => (d.genPower k).1)).sum * rating) ratings)
    let target := Int.tdiv ((sets.map (fun k => (d.genPower k).2.1)).sum * rating) ratings
    let term := Int.tdiv ((target - (d.genPower g).2.1) * d.tab.par.gq) rating
    let bus := d.deviation (d.genBus.bind d.busGroup)
    let held := fun (x : Int) => if x < -500 then -500 else if 500 < x then 500 else x
    (d.genBusIslanded = true → shares → (d.share.gen g).reactive = target ∧ (d.share.gen g).load = load ∧
      (d.share.gen g).volt = (if r.volt + term < -1000 then -1000 else if 1000 < r.volt + term then 1000 else r.volt + term)) ∧
    (d.genBusIslanded = false ∨ ¬ shares → (d.share.gen g).reactive = r.reactive ∧ (d.share.gen g).volt = r.volt ∧
      (d.share.gen g).load = r.load) ∧
    (∀ freq : Int, (bus.2 = false ∨ (∃ q, d.par.sync.served = some (.bus q) ∧ q.adjust = true) → freq = 0) →
      (bus.2 = true → (∀ q, d.par.sync.served = some (.bus q) → q.adjust = false) →
        freq = Int.tdiv (bus.1 * d.tab.par.gf) 100) →
      (d.genBusIslanded = true → shares →
        (d.share.gen g).speed = held (r.speed + (Int.tdiv ((load - p) * gl) rating - freq))) ∧
      (d.genBusIslanded = true → onBus → ¬ valid → (d.share.gen g).speed = held (r.speed - freq)) ∧
      (r.state = .unloadHeld → d.unloadSets.gen g = { r with
        speed := held (r.speed + ((if (d.genPower g).2.2 then Int.tdiv ((r.load - p) * gl) rating else 0)
          - (if d.par.islanded then freq else 0))) })) ∧
    (d.genBusIslanded = false → shares → d.share.gen g = { r with speed := held (r.speed + Int.tdiv ((r.load - p) * gl) rating) }) ∧
    (¬ onBus ∨ (d.genBusIslanded = false ∧ ¬ valid) → d.share.gen g = r) ∧
    (r.state = .unloading → ¬ (valid ∧ 20 * p ≤ rating) →
      let left := max 0 (r.load - ((d.genCfg g).ramp : Nat))
      d.unloadSets.gen g = { r with
        load := left
        speed := if (d.genPower g).2.2 then held (r.speed + Int.tdiv ((left - p) * gl) rating) else r.speed }) ∧
    (r.state ≠ .unloading → r.state ≠ .unloadHeld → d.unloadSets.gen g = r)) ∧
  (∀ (d : Dev) (g : Fin 6) (b : Fin 24), d.genBreaker g = some b →
    let opened := { d.breaker b with
      claim := some Holder.par, nextId := (d.breaker b).nextId + 1
      record := some { id := (d.breaker b).nextId, action := .openIt, prot := false, requester := .block .par, issue := d.now
                       repeatNo := 0, nextRepeat := after d.now 2, opEnd := after d.now (d.breakerCfg b).timeout
                       bfEnd := none, bfOperated := false, tellChg := false } }
    ((d.genPower g).2.2 = true → 20 * (d.genPower g).1 ≤ (d.ratingInUse g : Nat) → d.takesOpen b → d.position b ≠ .openPos →
      (d.unloadSet g).gen g = { d.gen g with state := .opening, timer := none, cmdId := some (d.breaker b).nextId } ∧
      (∀ k, k ≠ g → (d.unloadSet g).gen k = d.gen k) ∧
      (d.unloadSet g).breaker b = { opened with releasePending := false }) ∧
    (∀ reason, (d.gen g).state ≠ .failed → d.mgt.errors.length < 15 →
      let x := d.failGen g reason
      (x.gen g).state = .failed ∧ (x.gen g).reason = reason ∧ (x.gen g).timer = none ∧ (x.gen g).speed = 0 ∧
      (x.gen g).volt = 0 ∧ (x.gen g).load = 0 ∧ (x.gen g).reactive = 0 ∧ (∀ k, k ≠ g → x.gen k = d.gen k) ∧
      errorListed x.mgt.errors .genFailed g.val = true ∧ .meetDemand ∈ x.work ∧
      ((d.gen g).state = .onBus → .onBusChanged ∈ x.work) ∧
      (reason ≠ .manual → d.portBusy .p1 → (g, d.setpointFrame g false 0 0) ∈ x.lnk.setpoints) ∧
      (d.takesOpen b → (d.breaker b).claim = some .par → d.position b = .closed ∨ d.position b = .travelling →
        x.breaker b = { opened with releasePending := true }) ∧
      ((d.breaker b).claim = some .par → (d.breaker b).record = none → d.position b ≠ .closed → d.position b ≠ .travelling →
        (x.breaker b).claim = none ∧ (x.breaker b).record = none ∧ .claimReleased b ∈ x.work)))
end

