-- ==== Sys2Proof/Laws/State.lean ====
section
/-!
SUPPORT. Sys2Proof/Laws/State.lean: the small lemmas of the state's updates: what a table reads after a write, and one lemma
for each field that a named update of the device leaves as it was.
-/
namespace Sys2Proof.Machine

/-! ## Tables -/

@[simp] theorem tget_tset_same {α : Type} {n : Nat} (v : Vector α n) (i : Fin n) (x : α) : tget (tset v i x) i = x := by
  simp [tget, tset]

@[simp] theorem tget_tset_ne {α : Type} {n : Nat} (v : Vector α n) (i j : Fin n) (x : α) (h : j ≠ i) :
    tget (tset v i x) j = tget v j := by
  have h' : i.val ≠ j.val := fun e => h (Fin.ext e.symm)
  simp [tget, tset, h']

@[simp] theorem tget_tmod_same {α : Type} {n : Nat} (v : Vector α n) (i : Fin n) (f : α → α) :
    tget (tmod v i f) i = f (tget v i) := by
  simp [tmod]

@[simp] theorem tget_tmod_ne {α : Type} {n : Nat} (v : Vector α n) (i j : Fin n) (f : α → α) (h : j ≠ i) :
    tget (tmod v i f) j = tget v j := by
  simp [tmod, h]

@[simp] theorem tget_ofFn {α : Type} {n : Nat} (f : Fin n → α) (i : Fin n) : tget (Vector.ofFn f) i = f i := by
  simp [tget]

@[simp] theorem tget_replicate {α : Type} {n : Nat} (x : α) (i : Fin n) : tget (Vector.replicate n x) i = x := by
  simp [tget]

theorem tget_tmod {α : Type} {n : Nat} (v : Vector α n) (i j : Fin n) (f : α → α) :
    tget (tmod v i f) j = if j = i then f (tget v j) else tget v j := by
  by_cases h : j = i
  · subst h; simp
  · simp [h]

@[simp] theorem toId_val {n : Nat} (i : Fin n) : toId n i.val = some i := by simp [toId]

theorem toId_none {n x : Nat} (h : n ≤ x) : toId n x = none := by simp [toId, Nat.not_lt.mpr h]

@[simp] theorem forEach_nil {α β : Type} (f : α → β → β) (b : β) : forEach [] f b = b := rfl

@[simp] theorem forEach_cons {α β : Type} (x : α) (xs : List α) (f : α → β → β) (b : β) :
    forEach (x :: xs) f b = forEach xs f (f x b) := rfl

/-- What holds at the start and is kept by every turn holds after a `forEach`. -/
theorem forEach_keeps {α β : Type} (P : β → Prop) (xs : List α) (f : α → β → β) (b : β) (hf : ∀ x b, P b → P (f x b))
    (hb : P b) : P (forEach xs f b) := by
  induction xs generalizing b with
  | nil => exact hb
  | cons x xs ih => exact ih (f x b) (hf x b hb)

/-! ## Ports -/

@[simp] theorem Lnk.port_modPort_same (l : Lnk) (p : Port) (f : PortRec → PortRec) : (l.modPort p f).port p = f (l.port p) := by
  cases p <;> rfl

@[simp] theorem Lnk.port_modPort_other (l : Lnk) (p : Port) (f : PortRec → PortRec) :
    (l.modPort p f).port p.other = l.port p.other := by
  cases p <;> rfl

@[simp] theorem Lnk.modPort_fq12 (l : Lnk) (p : Port) (f : PortRec → PortRec) : (l.modPort p f).fq12 = l.fq12 := by
  cases p <;> rfl

@[simp] theorem Lnk.modPort_fq21 (l : Lnk) (p : Port) (f : PortRec → PortRec) : (l.modPort p f).fq21 = l.fq21 := by
  cases p <;> rfl

@[simp] theorem Lnk.modPort_protQueue (l : Lnk) (p : Port) (f : PortRec → PortRec) : (l.modPort p f).protQueue = l.protQueue := by
  cases p <;> rfl

@[simp] theorem Lnk.modPort_ctrlQueue (l : Lnk) (p : Port) (f : PortRec → PortRec) : (l.modPort p f).ctrlQueue = l.ctrlQueue := by
  cases p <;> rfl

@[simp] theorem Lnk.modPort_setpoints (l : Lnk) (p : Port) (f : PortRec → PortRec) : (l.modPort p f).setpoints = l.setpoints := by
  cases p <;> rfl

@[simp] theorem Lnk.modPort_fq12Drop (l : Lnk) (p : Port) (f : PortRec → PortRec) : (l.modPort p f).fq12Drop = l.fq12Drop := by
  cases p <;> rfl

@[simp] theorem Lnk.modPort_fq21Drop (l : Lnk) (p : Port) (f : PortRec → PortRec) : (l.modPort p f).fq21Drop = l.fq21Drop := by
  cases p <;> rfl

@[simp] theorem Lnk.modPort_screened (l : Lnk) (p : Port) (f : PortRec → PortRec) : (l.modPort p f).screened = l.screened := by
  cases p <;> rfl

/-! ## The device -/

@[simp] theorem Dev.modPort_now (d : Dev) (p : Port) (f : PortRec → PortRec) : (d.modPort p f).now = d.now := rfl
@[simp] theorem Dev.modPort_mode (d : Dev) (p : Port) (f : PortRec → PortRec) : (d.modPort p f).mode = d.mode := rfl
@[simp] theorem Dev.modPort_f60 (d : Dev) (p : Port) (f : PortRec → PortRec) : (d.modPort p f).f60 = d.f60 := rfl
@[simp] theorem Dev.modPort_nomf (d : Dev) (p : Port) (f : PortRec → PortRec) : (d.modPort p f).nomf = d.nomf := rfl
@[simp] theorem Dev.modPort_mgw (d : Dev) (p : Port) (f : PortRec → PortRec) : (d.modPort p f).mgw = d.mgw := rfl
@[simp] theorem Dev.modPort_tab (d : Dev) (p : Port) (f : PortRec → PortRec) : (d.modPort p f).tab = d.tab := rfl
@[simp] theorem Dev.modPort_sau (d : Dev) (p : Port) (f : PortRec → PortRec) : (d.modPort p f).sau = d.sau := rfl
@[simp] theorem Dev.modPort_meas (d : Dev) (p : Port) (f : PortRec → PortRec) : (d.modPort p f).meas = d.meas := rfl
@[simp] theorem Dev.modPort_prot (d : Dev) (p : Port) (f : PortRec → PortRec) : (d.modPort p f).prot = d.prot := rfl
@[simp] theorem Dev.modPort_swm (d : Dev) (p : Port) (f : PortRec → PortRec) : (d.modPort p f).swm = d.swm := rfl
@[simp] theorem Dev.modPort_chg (d : Dev) (p : Port) (f : PortRec → PortRec) : (d.modPort p f).chg = d.chg := rfl
@[simp] theorem Dev.modPort_par (d : Dev) (p : Port) (f : PortRec → PortRec) : (d.modPort p f).par = d.par := rfl
@[simp] theorem Dev.modPort_cap (d : Dev) (p : Port) (f : PortRec → PortRec) : (d.modPort p f).cap = d.cap := rfl
@[simp] theorem Dev.modPort_mgt (d : Dev) (p : Port) (f : PortRec → PortRec) : (d.modPort p f).mgt = d.mgt := rfl
@[simp] theorem Dev.modPort_work (d : Dev) (p : Port) (f : PortRec → PortRec) : (d.modPort p f).work = d.work := rfl
@[simp] theorem Dev.modPort_ties (d : Dev) (p : Port) (f : PortRec → PortRec) : (d.modPort p f).ties = d.ties := rfl

@[simp] theorem Dev.modCounters_now (d : Dev) (p : Port) (f : PortCounters → PortCounters) : (d.modCounters p f).now = d.now := rfl
@[simp] theorem Dev.modCounters_mode (d : Dev) (p : Port) (f : PortCounters → PortCounters) : (d.modCounters p f).mode = d.mode := rfl
@[simp] theorem Dev.modCounters_f60 (d : Dev) (p : Port) (f : PortCounters → PortCounters) : (d.modCounters p f).f60 = d.f60 := rfl
@[simp] theorem Dev.modCounters_nomf (d : Dev) (p : Port) (f : PortCounters → PortCounters) : (d.modCounters p f).nomf = d.nomf := rfl
@[simp] theorem Dev.modCounters_mgw (d : Dev) (p : Port) (f : PortCounters → PortCounters) : (d.modCounters p f).mgw = d.mgw := rfl
@[simp] theorem Dev.modCounters_tab (d : Dev) (p : Port) (f : PortCounters → PortCounters) : (d.modCounters p f).tab = d.tab := rfl
@[simp] theorem Dev.modCounters_sau (d : Dev) (p : Port) (f : PortCounters → PortCounters) : (d.modCounters p f).sau = d.sau := rfl
@[simp] theorem Dev.modCounters_meas (d : Dev) (p : Port) (f : PortCounters → PortCounters) : (d.modCounters p f).meas = d.meas := rfl
@[simp] theorem Dev.modCounters_prot (d : Dev) (p : Port) (f : PortCounters → PortCounters) : (d.modCounters p f).prot = d.prot := rfl
@[simp] theorem Dev.modCounters_swm (d : Dev) (p : Port) (f : PortCounters → PortCounters) : (d.modCounters p f).swm = d.swm := rfl
@[simp] theorem Dev.modCounters_chg (d : Dev) (p : Port) (f : PortCounters → PortCounters) : (d.modCounters p f).chg = d.chg := rfl
@[simp] theorem Dev.modCounters_par (d : Dev) (p : Port) (f : PortCounters → PortCounters) : (d.modCounters p f).par = d.par := rfl
@[simp] theorem Dev.modCounters_cap (d : Dev) (p : Port) (f : PortCounters → PortCounters) : (d.modCounters p f).cap = d.cap := rfl
@[simp] theorem Dev.modCounters_mgt (d : Dev) (p : Port) (f : PortCounters → PortCounters) : (d.modCounters p f).mgt = d.mgt := rfl
@[simp] theorem Dev.modCounters_work (d : Dev) (p : Port) (f : PortCounters → PortCounters) : (d.modCounters p f).work = d.work := rfl
@[simp] theorem Dev.modCounters_ties (d : Dev) (p : Port) (f : PortCounters → PortCounters) : (d.modCounters p f).ties = d.ties := rfl

@[simp] theorem Dev.modStream_now (d : Dev) (i : Fin 24) (f : StreamRec → StreamRec) : (d.modStream i f).now = d.now := rfl
@[simp] theorem Dev.modStream_mode (d : Dev) (i : Fin 24) (f : StreamRec → StreamRec) : (d.modStream i f).mode = d.mode := rfl
@[simp] theorem Dev.modStream_f60 (d : Dev) (i : Fin 24) (f : StreamRec → StreamRec) : (d.modStream i f).f60 = d.f60 := rfl
@[simp] theorem Dev.modStream_nomf (d : Dev) (i : Fin 24) (f : StreamRec → StreamRec) : (d.modStream i f).nomf = d.nomf := rfl
@[simp] theorem Dev.modStream_mgw (d : Dev) (i : Fin 24) (f : StreamRec → StreamRec) : (d.modStream i f).mgw = d.mgw := rfl
@[simp] theorem Dev.modStream_tab (d : Dev) (i : Fin 24) (f : StreamRec → StreamRec) : (d.modStream i f).tab = d.tab := rfl
@[simp] theorem Dev.modStream_lnk (d : Dev) (i : Fin 24) (f : StreamRec → StreamRec) : (d.modStream i f).lnk = d.lnk := rfl
@[simp] theorem Dev.modStream_meas (d : Dev) (i : Fin 24) (f : StreamRec → StreamRec) : (d.modStream i f).meas = d.meas := rfl
@[simp] theorem Dev.modStream_prot (d : Dev) (i : Fin 24) (f : StreamRec → StreamRec) : (d.modStream i f).prot = d.prot := rfl
@[simp] theorem Dev.modStream_swm (d : Dev) (i : Fin 24) (f : StreamRec → StreamRec) : (d.modStream i f).swm = d.swm := rfl
@[simp] theorem Dev.modStream_chg (d : Dev) (i : Fin 24) (f : StreamRec → StreamRec) : (d.modStream i f).chg = d.chg := rfl
@[simp] theorem Dev.modStream_par (d : Dev) (i : Fin 24) (f : StreamRec → StreamRec) : (d.modStream i f).par = d.par := rfl
@[simp] theorem Dev.modStream_cap (d : Dev) (i : Fin 24) (f : StreamRec → StreamRec) : (d.modStream i f).cap = d.cap := rfl
@[simp] theorem Dev.modStream_mgt (d : Dev) (i : Fin 24) (f : StreamRec → StreamRec) : (d.modStream i f).mgt = d.mgt := rfl
@[simp] theorem Dev.modStream_work (d : Dev) (i : Fin 24) (f : StreamRec → StreamRec) : (d.modStream i f).work = d.work := rfl
@[simp] theorem Dev.modStream_ties (d : Dev) (i : Fin 24) (f : StreamRec → StreamRec) : (d.modStream i f).ties = d.ties := rfl

@[simp] theorem Dev.modElement_now (d : Dev) (e : Fin 32) (f : ElementRec → ElementRec) : (d.modElement e f).now = d.now := rfl
@[simp] theorem Dev.modElement_mode (d : Dev) (e : Fin 32) (f : ElementRec → ElementRec) : (d.modElement e f).mode = d.mode := rfl
@[simp] theorem Dev.modElement_f60 (d : Dev) (e : Fin 32) (f : ElementRec → ElementRec) : (d.modElement e f).f60 = d.f60 := rfl
@[simp] theorem Dev.modElement_nomf (d : Dev) (e : Fin 32) (f : ElementRec → ElementRec) : (d.modElement e f).nomf = d.nomf := rfl
@[simp] theorem Dev.modElement_mgw (d : Dev) (e : Fin 32) (f : ElementRec → ElementRec) : (d.modElement e f).mgw = d.mgw := rfl
@[simp] theorem Dev.modElement_tab (d : Dev) (e : Fin 32) (f : ElementRec → ElementRec) : (d.modElement e f).tab = d.tab := rfl
@[simp] theorem Dev.modElement_lnk (d : Dev) (e : Fin 32) (f : ElementRec → ElementRec) : (d.modElement e f).lnk = d.lnk := rfl
@[simp] theorem Dev.modElement_sau (d : Dev) (e : Fin 32) (f : ElementRec → ElementRec) : (d.modElement e f).sau = d.sau := rfl
@[simp] theorem Dev.modElement_meas (d : Dev) (e : Fin 32) (f : ElementRec → ElementRec) : (d.modElement e f).meas = d.meas := rfl
@[simp] theorem Dev.modElement_swm (d : Dev) (e : Fin 32) (f : ElementRec → ElementRec) : (d.modElement e f).swm = d.swm := rfl
@[simp] theorem Dev.modElement_chg (d : Dev) (e : Fin 32) (f : ElementRec → ElementRec) : (d.modElement e f).chg = d.chg := rfl
@[simp] theorem Dev.modElement_par (d : Dev) (e : Fin 32) (f : ElementRec → ElementRec) : (d.modElement e f).par = d.par := rfl
@[simp] theorem Dev.modElement_cap (d : Dev) (e : Fin 32) (f : ElementRec → ElementRec) : (d.modElement e f).cap = d.cap := rfl
@[simp] theorem Dev.modElement_mgt (d : Dev) (e : Fin 32) (f : ElementRec → ElementRec) : (d.modElement e f).mgt = d.mgt := rfl
@[simp] theorem Dev.modElement_work (d : Dev) (e : Fin 32) (f : ElementRec → ElementRec) : (d.modElement e f).work = d.work := rfl
@[simp] theorem Dev.modElement_ties (d : Dev) (e : Fin 32) (f : ElementRec → ElementRec) : (d.modElement e f).ties = d.ties := rfl

@[simp] theorem Dev.modBreaker_now (d : Dev) (b : Fin 24) (f : BreakerRec → BreakerRec) : (d.modBreaker b f).now = d.now := rfl
@[simp] theorem Dev.modBreaker_mode (d : Dev) (b : Fin 24) (f : BreakerRec → BreakerRec) : (d.modBreaker b f).mode = d.mode := rfl
@[simp] theorem Dev.modBreaker_f60 (d : Dev) (b : Fin 24) (f : BreakerRec → BreakerRec) : (d.modBreaker b f).f60 = d.f60 := rfl
@[simp] theorem Dev.modBreaker_nomf (d : Dev) (b : Fin 24) (f : BreakerRec → BreakerRec) : (d.modBreaker b f).nomf = d.nomf := rfl
@[simp] theorem Dev.modBreaker_mgw (d : Dev) (b : Fin 24) (f : BreakerRec → BreakerRec) : (d.modBreaker b f).mgw = d.mgw := rfl
@[simp] theorem Dev.modBreaker_tab (d : Dev) (b : Fin 24) (f : BreakerRec → BreakerRec) : (d.modBreaker b f).tab = d.tab := rfl
@[simp] theorem Dev.modBreaker_lnk (d : Dev) (b : Fin 24) (f : BreakerRec → BreakerRec) : (d.modBreaker b f).lnk = d.lnk := rfl
@[simp] theorem Dev.modBreaker_sau (d : Dev) (b : Fin 24) (f : BreakerRec → BreakerRec) : (d.modBreaker b f).sau = d.sau := rfl
@[simp] theorem Dev.modBreaker_meas (d : Dev) (b : Fin 24) (f : BreakerRec → BreakerRec) : (d.modBreaker b f).meas = d.meas := rfl
@[simp] theorem Dev.modBreaker_prot (d : Dev) (b : Fin 24) (f : BreakerRec → BreakerRec) : (d.modBreaker b f).prot = d.prot := rfl
@[simp] theorem Dev.modBreaker_chg (d : Dev) (b : Fin 24) (f : BreakerRec → BreakerRec) : (d.modBreaker b f).chg = d.chg := rfl
@[simp] theorem Dev.modBreaker_par (d : Dev) (b : Fin 24) (f : BreakerRec → BreakerRec) : (d.modBreaker b f).par = d.par := rfl
@[simp] theorem Dev.modBreaker_cap (d : Dev) (b : Fin 24) (f : BreakerRec → BreakerRec) : (d.modBreaker b f).cap = d.cap := rfl
@[simp] theorem Dev.modBreaker_mgt (d : Dev) (b : Fin 24) (f : BreakerRec → BreakerRec) : (d.modBreaker b f).mgt = d.mgt := rfl
@[simp] theorem Dev.modBreaker_work (d : Dev) (b : Fin 24) (f : BreakerRec → BreakerRec) : (d.modBreaker b f).work = d.work := rfl
@[simp] theorem Dev.modBreaker_ties (d : Dev) (b : Fin 24) (f : BreakerRec → BreakerRec) : (d.modBreaker b f).ties = d.ties := rfl

@[simp] theorem Dev.modBus_now (d : Dev) (y : Fin 6) (f : BusRec → BusRec) : (d.modBus y f).now = d.now := rfl
@[simp] theorem Dev.modBus_mode (d : Dev) (y : Fin 6) (f : BusRec → BusRec) : (d.modBus y f).mode = d.mode := rfl
@[simp] theorem Dev.modBus_f60 (d : Dev) (y : Fin 6) (f : BusRec → BusRec) : (d.modBus y f).f60 = d.f60 := rfl
@[simp] theorem Dev.modBus_nomf (d : Dev) (y : Fin 6) (f : BusRec → BusRec) : (d.modBus y f).nomf = d.nomf := rfl
@[simp] theorem Dev.modBus_mgw (d : Dev) (y : Fin 6) (f : BusRec → BusRec) : (d.modBus y f).mgw = d.mgw := rfl
@[simp] theorem Dev.modBus_tab (d : Dev) (y : Fin 6) (f : BusRec → BusRec) : (d.modBus y f).tab = d.tab := rfl
@[simp] theorem Dev.modBus_lnk (d : Dev) (y : Fin 6) (f : BusRec → BusRec) : (d.modBus y f).lnk = d.lnk := rfl
@[simp] theorem Dev.modBus_sau (d : Dev) (y : Fin 6) (f : BusRec → BusRec) : (d.modBus y f).sau = d.sau := rfl
@[simp] theorem Dev.modBus_meas (d : Dev) (y : Fin 6) (f : BusRec → BusRec) : (d.modBus y f).meas = d.meas := rfl
@[simp] theorem Dev.modBus_prot (d : Dev) (y : Fin 6) (f : BusRec → BusRec) : (d.modBus y f).prot = d.prot := rfl
@[simp] theorem Dev.modBus_chg (d : Dev) (y : Fin 6) (f : BusRec → BusRec) : (d.modBus y f).chg = d.chg := rfl
@[simp] theorem Dev.modBus_par (d : Dev) (y : Fin 6) (f : BusRec → BusRec) : (d.modBus y f).par = d.par := rfl
@[simp] theorem Dev.modBus_cap (d : Dev) (y : Fin 6) (f : BusRec → BusRec) : (d.modBus y f).cap = d.cap := rfl
@[simp] theorem Dev.modBus_mgt (d : Dev) (y : Fin 6) (f : BusRec → BusRec) : (d.modBus y f).mgt = d.mgt := rfl
@[simp] theorem Dev.modBus_work (d : Dev) (y : Fin 6) (f : BusRec → BusRec) : (d.modBus y f).work = d.work := rfl
@[simp] theorem Dev.modBus_ties (d : Dev) (y : Fin 6) (f : BusRec → BusRec) : (d.modBus y f).ties = d.ties := rfl

@[simp] theorem Dev.modGen_now (d : Dev) (g : Fin 6) (f : GenRec → GenRec) : (d.modGen g f).now = d.now := rfl
@[simp] theorem Dev.modGen_mode (d : Dev) (g : Fin 6) (f : GenRec → GenRec) : (d.modGen g f).mode = d.mode := rfl
@[simp] theorem Dev.modGen_f60 (d : Dev) (g : Fin 6) (f : GenRec → GenRec) : (d.modGen g f).f60 = d.f60 := rfl
@[simp] theorem Dev.modGen_nomf (d : Dev) (g : Fin 6) (f : GenRec → GenRec) : (d.modGen g f).nomf = d.nomf := rfl
@[simp] theorem Dev.modGen_mgw (d : Dev) (g : Fin 6) (f : GenRec → GenRec) : (d.modGen g f).mgw = d.mgw := rfl
@[simp] theorem Dev.modGen_tab (d : Dev) (g : Fin 6) (f : GenRec → GenRec) : (d.modGen g f).tab = d.tab := rfl
@[simp] theorem Dev.modGen_lnk (d : Dev) (g : Fin 6) (f : GenRec → GenRec) : (d.modGen g f).lnk = d.lnk := rfl
@[simp] theorem Dev.modGen_sau (d : Dev) (g : Fin 6) (f : GenRec → GenRec) : (d.modGen g f).sau = d.sau := rfl
@[simp] theorem Dev.modGen_meas (d : Dev) (g : Fin 6) (f : GenRec → GenRec) : (d.modGen g f).meas = d.meas := rfl
@[simp] theorem Dev.modGen_prot (d : Dev) (g : Fin 6) (f : GenRec → GenRec) : (d.modGen g f).prot = d.prot := rfl
@[simp] theorem Dev.modGen_swm (d : Dev) (g : Fin 6) (f : GenRec → GenRec) : (d.modGen g f).swm = d.swm := rfl
@[simp] theorem Dev.modGen_chg (d : Dev) (g : Fin 6) (f : GenRec → GenRec) : (d.modGen g f).chg = d.chg := rfl
@[simp] theorem Dev.modGen_cap (d : Dev) (g : Fin 6) (f : GenRec → GenRec) : (d.modGen g f).cap = d.cap := rfl
@[simp] theorem Dev.modGen_mgt (d : Dev) (g : Fin 6) (f : GenRec → GenRec) : (d.modGen g f).mgt = d.mgt := rfl
@[simp] theorem Dev.modGen_work (d : Dev) (g : Fin 6) (f : GenRec → GenRec) : (d.modGen g f).work = d.work := rfl
@[simp] theorem Dev.modGen_ties (d : Dev) (g : Fin 6) (f : GenRec → GenRec) : (d.modGen g f).ties = d.ties := rfl

@[simp] theorem Dev.modMgt_now (d : Dev) (f : Mgt → Mgt) : (d.modMgt f).now = d.now := rfl
@[simp] theorem Dev.modMgt_mode (d : Dev) (f : Mgt → Mgt) : (d.modMgt f).mode = d.mode := rfl
@[simp] theorem Dev.modMgt_f60 (d : Dev) (f : Mgt → Mgt) : (d.modMgt f).f60 = d.f60 := rfl
@[simp] theorem Dev.modMgt_nomf (d : Dev) (f : Mgt → Mgt) : (d.modMgt f).nomf = d.nomf := rfl
@[simp] theorem Dev.modMgt_mgw (d : Dev) (f : Mgt → Mgt) : (d.modMgt f).mgw = d.mgw := rfl
@[simp] theorem Dev.modMgt_tab (d : Dev) (f : Mgt → Mgt) : (d.modMgt f).tab = d.tab := rfl
@[simp] theorem Dev.modMgt_lnk (d : Dev) (f : Mgt → Mgt) : (d.modMgt f).lnk = d.lnk := rfl
@[simp] theorem Dev.modMgt_sau (d : Dev) (f : Mgt → Mgt) : (d.modMgt f).sau = d.sau := rfl
@[simp] theorem Dev.modMgt_meas (d : Dev) (f : Mgt → Mgt) : (d.modMgt f).meas = d.meas := rfl
@[simp] theorem Dev.modMgt_prot (d : Dev) (f : Mgt → Mgt) : (d.modMgt f).prot = d.prot := rfl
@[simp] theorem Dev.modMgt_swm (d : Dev) (f : Mgt → Mgt) : (d.modMgt f).swm = d.swm := rfl
@[simp] theorem Dev.modMgt_chg (d : Dev) (f : Mgt → Mgt) : (d.modMgt f).chg = d.chg := rfl
@[simp] theorem Dev.modMgt_par (d : Dev) (f : Mgt → Mgt) : (d.modMgt f).par = d.par := rfl
@[simp] theorem Dev.modMgt_cap (d : Dev) (f : Mgt → Mgt) : (d.modMgt f).cap = d.cap := rfl
@[simp] theorem Dev.modMgt_work (d : Dev) (f : Mgt → Mgt) : (d.modMgt f).work = d.work := rfl
@[simp] theorem Dev.modMgt_ties (d : Dev) (f : Mgt → Mgt) : (d.modMgt f).ties = d.ties := rfl

@[simp] theorem Dev.modChg_now (d : Dev) (f : Chg → Chg) : (d.modChg f).now = d.now := rfl
@[simp] theorem Dev.modChg_mode (d : Dev) (f : Chg → Chg) : (d.modChg f).mode = d.mode := rfl
@[simp] theorem Dev.modChg_f60 (d : Dev) (f : Chg → Chg) : (d.modChg f).f60 = d.f60 := rfl
@[simp] theorem Dev.modChg_nomf (d : Dev) (f : Chg → Chg) : (d.modChg f).nomf = d.nomf := rfl
@[simp] theorem Dev.modChg_mgw (d : Dev) (f : Chg → Chg) : (d.modChg f).mgw = d.mgw := rfl
@[simp] theorem Dev.modChg_tab (d : Dev) (f : Chg → Chg) : (d.modChg f).tab = d.tab := rfl
@[simp] theorem Dev.modChg_lnk (d : Dev) (f : Chg → Chg) : (d.modChg f).lnk = d.lnk := rfl
@[simp] theorem Dev.modChg_sau (d : Dev) (f : Chg → Chg) : (d.modChg f).sau = d.sau := rfl
@[simp] theorem Dev.modChg_meas (d : Dev) (f : Chg → Chg) : (d.modChg f).meas = d.meas := rfl
@[simp] theorem Dev.modChg_prot (d : Dev) (f : Chg → Chg) : (d.modChg f).prot = d.prot := rfl
@[simp] theorem Dev.modChg_swm (d : Dev) (f : Chg → Chg) : (d.modChg f).swm = d.swm := rfl
@[simp] theorem Dev.modChg_par (d : Dev) (f : Chg → Chg) : (d.modChg f).par = d.par := rfl
@[simp] theorem Dev.modChg_cap (d : Dev) (f : Chg → Chg) : (d.modChg f).cap = d.cap := rfl
@[simp] theorem Dev.modChg_mgt (d : Dev) (f : Chg → Chg) : (d.modChg f).mgt = d.mgt := rfl
@[simp] theorem Dev.modChg_work (d : Dev) (f : Chg → Chg) : (d.modChg f).work = d.work := rfl
@[simp] theorem Dev.modChg_ties (d : Dev) (f : Chg → Chg) : (d.modChg f).ties = d.ties := rfl

@[simp] theorem Dev.push_now (d : Dev) (r : Report) : (d.push r).now = d.now := rfl
@[simp] theorem Dev.push_mode (d : Dev) (r : Report) : (d.push r).mode = d.mode := rfl
@[simp] theorem Dev.push_f60 (d : Dev) (r : Report) : (d.push r).f60 = d.f60 := rfl
@[simp] theorem Dev.push_nomf (d : Dev) (r : Report) : (d.push r).nomf = d.nomf := rfl
@[simp] theorem Dev.push_mgw (d : Dev) (r : Report) : (d.push r).mgw = d.mgw := rfl
@[simp] theorem Dev.push_tab (d : Dev) (r : Report) : (d.push r).tab = d.tab := rfl
@[simp] theorem Dev.push_lnk (d : Dev) (r : Report) : (d.push r).lnk = d.lnk := rfl
@[simp] theorem Dev.push_sau (d : Dev) (r : Report) : (d.push r).sau = d.sau := rfl
@[simp] theorem Dev.push_meas (d : Dev) (r : Report) : (d.push r).meas = d.meas := rfl
@[simp] theorem Dev.push_prot (d : Dev) (r : Report) : (d.push r).prot = d.prot := rfl
@[simp] theorem Dev.push_swm (d : Dev) (r : Report) : (d.push r).swm = d.swm := rfl
@[simp] theorem Dev.push_chg (d : Dev) (r : Report) : (d.push r).chg = d.chg := rfl
@[simp] theorem Dev.push_par (d : Dev) (r : Report) : (d.push r).par = d.par := rfl
@[simp] theorem Dev.push_cap (d : Dev) (r : Report) : (d.push r).cap = d.cap := rfl
@[simp] theorem Dev.push_mgt (d : Dev) (r : Report) : (d.push r).mgt = d.mgt := rfl
@[simp] theorem Dev.push_ties (d : Dev) (r : Report) : (d.push r).ties = d.ties := rfl

@[simp] theorem Dev.storeJob_now (d : Dev) (j : StoreJob) : (d.storeJob j).now = d.now := rfl
@[simp] theorem Dev.storeJob_mode (d : Dev) (j : StoreJob) : (d.storeJob j).mode = d.mode := rfl
@[simp] theorem Dev.storeJob_f60 (d : Dev) (j : StoreJob) : (d.storeJob j).f60 = d.f60 := rfl
@[simp] theorem Dev.storeJob_nomf (d : Dev) (j : StoreJob) : (d.storeJob j).nomf = d.nomf := rfl
@[simp] theorem Dev.storeJob_mgw (d : Dev) (j : StoreJob) : (d.storeJob j).mgw = d.mgw := rfl
@[simp] theorem Dev.storeJob_tab (d : Dev) (j : StoreJob) : (d.storeJob j).tab = d.tab := rfl
@[simp] theorem Dev.storeJob_lnk (d : Dev) (j : StoreJob) : (d.storeJob j).lnk = d.lnk := rfl
@[simp] theorem Dev.storeJob_sau (d : Dev) (j : StoreJob) : (d.storeJob j).sau = d.sau := rfl
@[simp] theorem Dev.storeJob_meas (d : Dev) (j : StoreJob) : (d.storeJob j).meas = d.meas := rfl
@[simp] theorem Dev.storeJob_prot (d : Dev) (j : StoreJob) : (d.storeJob j).prot = d.prot := rfl
@[simp] theorem Dev.storeJob_chg (d : Dev) (j : StoreJob) : (d.storeJob j).chg = d.chg := rfl
@[simp] theorem Dev.storeJob_par (d : Dev) (j : StoreJob) : (d.storeJob j).par = d.par := rfl
@[simp] theorem Dev.storeJob_cap (d : Dev) (j : StoreJob) : (d.storeJob j).cap = d.cap := rfl
@[simp] theorem Dev.storeJob_mgt (d : Dev) (j : StoreJob) : (d.storeJob j).mgt = d.mgt := rfl
@[simp] theorem Dev.storeJob_work (d : Dev) (j : StoreJob) : (d.storeJob j).work = d.work := rfl
@[simp] theorem Dev.storeJob_ties (d : Dev) (j : StoreJob) : (d.storeJob j).ties = d.ties := rfl

@[simp] theorem Dev.noteError_now (d : Dev) (c : ErrorCode) (n : Nat) : (d.noteError c n).now = d.now := rfl
@[simp] theorem Dev.noteError_mode (d : Dev) (c : ErrorCode) (n : Nat) : (d.noteError c n).mode = d.mode := rfl
@[simp] theorem Dev.noteError_f60 (d : Dev) (c : ErrorCode) (n : Nat) : (d.noteError c n).f60 = d.f60 := rfl
@[simp] theorem Dev.noteError_nomf (d : Dev) (c : ErrorCode) (n : Nat) : (d.noteError c n).nomf = d.nomf := rfl
@[simp] theorem Dev.noteError_mgw (d : Dev) (c : ErrorCode) (n : Nat) : (d.noteError c n).mgw = d.mgw := rfl
@[simp] theorem Dev.noteError_tab (d : Dev) (c : ErrorCode) (n : Nat) : (d.noteError c n).tab = d.tab := rfl
@[simp] theorem Dev.noteError_lnk (d : Dev) (c : ErrorCode) (n : Nat) : (d.noteError c n).lnk = d.lnk := rfl
@[simp] theorem Dev.noteError_sau (d : Dev) (c : ErrorCode) (n : Nat) : (d.noteError c n).sau = d.sau := rfl
@[simp] theorem Dev.noteError_meas (d : Dev) (c : ErrorCode) (n : Nat) : (d.noteError c n).meas = d.meas := rfl
@[simp] theorem Dev.noteError_prot (d : Dev) (c : ErrorCode) (n : Nat) : (d.noteError c n).prot = d.prot := rfl
@[simp] theorem Dev.noteError_swm (d : Dev) (c : ErrorCode) (n : Nat) : (d.noteError c n).swm = d.swm := rfl
@[simp] theorem Dev.noteError_chg (d : Dev) (c : ErrorCode) (n : Nat) : (d.noteError c n).chg = d.chg := rfl
@[simp] theorem Dev.noteError_par (d : Dev) (c : ErrorCode) (n : Nat) : (d.noteError c n).par = d.par := rfl
@[simp] theorem Dev.noteError_cap (d : Dev) (c : ErrorCode) (n : Nat) : (d.noteError c n).cap = d.cap := rfl
@[simp] theorem Dev.noteError_work (d : Dev) (c : ErrorCode) (n : Nat) : (d.noteError c n).work = d.work := rfl
@[simp] theorem Dev.noteError_ties (d : Dev) (c : ErrorCode) (n : Nat) : (d.noteError c n).ties = d.ties := rfl

@[simp] theorem Dev.trigger_now (d : Dev) (k : TriggerKind) (n : Nat) : (d.trigger k n).now = d.now := rfl
@[simp] theorem Dev.trigger_mode (d : Dev) (k : TriggerKind) (n : Nat) : (d.trigger k n).mode = d.mode := rfl
@[simp] theorem Dev.trigger_f60 (d : Dev) (k : TriggerKind) (n : Nat) : (d.trigger k n).f60 = d.f60 := rfl
@[simp] theorem Dev.trigger_nomf (d : Dev) (k : TriggerKind) (n : Nat) : (d.trigger k n).nomf = d.nomf := rfl
@[simp] theorem Dev.trigger_mgw (d : Dev) (k : TriggerKind) (n : Nat) : (d.trigger k n).mgw = d.mgw := rfl
@[simp] theorem Dev.trigger_tab (d : Dev) (k : TriggerKind) (n : Nat) : (d.trigger k n).tab = d.tab := rfl
@[simp] theorem Dev.trigger_lnk (d : Dev) (k : TriggerKind) (n : Nat) : (d.trigger k n).lnk = d.lnk := rfl
@[simp] theorem Dev.trigger_sau (d : Dev) (k : TriggerKind) (n : Nat) : (d.trigger k n).sau = d.sau := rfl
@[simp] theorem Dev.trigger_meas (d : Dev) (k : TriggerKind) (n : Nat) : (d.trigger k n).meas = d.meas := rfl
@[simp] theorem Dev.trigger_prot (d : Dev) (k : TriggerKind) (n : Nat) : (d.trigger k n).prot = d.prot := rfl
@[simp] theorem Dev.trigger_swm (d : Dev) (k : TriggerKind) (n : Nat) : (d.trigger k n).swm = d.swm := rfl
@[simp] theorem Dev.trigger_chg (d : Dev) (k : TriggerKind) (n : Nat) : (d.trigger k n).chg = d.chg := rfl
@[simp] theorem Dev.trigger_par (d : Dev) (k : TriggerKind) (n : Nat) : (d.trigger k n).par = d.par := rfl
@[simp] theorem Dev.trigger_mgt (d : Dev) (k : TriggerKind) (n : Nat) : (d.trigger k n).mgt = d.mgt := rfl
@[simp] theorem Dev.trigger_work (d : Dev) (k : TriggerKind) (n : Nat) : (d.trigger k n).work = d.work := rfl
@[simp] theorem Dev.trigger_ties (d : Dev) (k : TriggerKind) (n : Nat) : (d.trigger k n).ties = d.ties := rfl

@[simp] theorem Dev.modPort_lnk (d : Dev) (p : Port) (f : PortRec → PortRec) : (d.modPort p f).lnk = d.lnk.modPort p f := rfl
@[simp] theorem Dev.modMgt_mgt (d : Dev) (f : Mgt → Mgt) : (d.modMgt f).mgt = f d.mgt := rfl
@[simp] theorem Dev.modChg_chg (d : Dev) (f : Chg → Chg) : (d.modChg f).chg = f d.chg := rfl
@[simp] theorem Dev.push_work (d : Dev) (r : Report) : (d.push r).work = d.work ++ [r] := rfl
@[simp] theorem Dev.modBreaker_breaker_same (d : Dev) (b : Fin 24) (f : BreakerRec → BreakerRec) :
    (d.modBreaker b f).breaker b = f (d.breaker b) := tget_tmod_same _ _ _
@[simp] theorem Dev.modBreaker_breaker_ne (d : Dev) (b x : Fin 24) (f : BreakerRec → BreakerRec) (h : x ≠ b) :
    (d.modBreaker b f).breaker x = d.breaker x := tget_tmod_ne _ _ _ _ h
theorem Dev.modBreaker_breaker (d : Dev) (b x : Fin 24) (f : BreakerRec → BreakerRec) :
    (d.modBreaker b f).breaker x = if x = b then f (d.breaker x) else d.breaker x := tget_tmod _ _ _ _
@[simp] theorem Dev.modBreaker_buses (d : Dev) (b : Fin 24) (f : BreakerRec → BreakerRec) :
    (d.modBreaker b f).swm.buses = d.swm.buses := rfl
@[simp] theorem Dev.modBreaker_jobs (d : Dev) (b : Fin 24) (f : BreakerRec → BreakerRec) :
    (d.modBreaker b f).swm.jobs = d.swm.jobs := rfl
@[simp] theorem Dev.modBus_breakers (d : Dev) (y : Fin 6) (f : BusRec → BusRec) :
    (d.modBus y f).swm.breakers = d.swm.breakers := rfl
@[simp] theorem Dev.modBus_bus_same (d : Dev) (y : Fin 6) (f : BusRec → BusRec) : (d.modBus y f).bus y = f (d.bus y) :=
  tget_tmod_same _ _ _
@[simp] theorem Dev.modBus_bus_ne (d : Dev) (y z : Fin 6) (f : BusRec → BusRec) (h : z ≠ y) : (d.modBus y f).bus z = d.bus z :=
  tget_tmod_ne _ _ _ _ h
@[simp] theorem Dev.takeBusSettings_now (d : Dev) : d.takeBusSettings.now = d.now := rfl
@[simp] theorem Dev.takeBusSettings_mode (d : Dev) : d.takeBusSettings.mode = d.mode := rfl
@[simp] theorem Dev.takeBusSettings_f60 (d : Dev) : d.takeBusSettings.f60 = d.f60 := rfl
@[simp] theorem Dev.takeBusSettings_nomf (d : Dev) : d.takeBusSettings.nomf = d.nomf := rfl
@[simp] theorem Dev.takeBusSettings_mgw (d : Dev) : d.takeBusSettings.mgw = d.mgw := rfl
@[simp] theorem Dev.takeBusSettings_tab (d : Dev) : d.takeBusSettings.tab = d.tab := rfl
@[simp] theorem Dev.takeBusSettings_lnk (d : Dev) : d.takeBusSettings.lnk = d.lnk := rfl
@[simp] theorem Dev.takeBusSettings_sau (d : Dev) : d.takeBusSettings.sau = d.sau := rfl
@[simp] theorem Dev.takeBusSettings_meas (d : Dev) : d.takeBusSettings.meas = d.meas := rfl
@[simp] theorem Dev.takeBusSettings_prot (d : Dev) : d.takeBusSettings.prot = d.prot := rfl
@[simp] theorem Dev.takeBusSettings_chg (d : Dev) : d.takeBusSettings.chg = d.chg := rfl
@[simp] theorem Dev.takeBusSettings_par (d : Dev) : d.takeBusSettings.par = d.par := rfl
@[simp] theorem Dev.takeBusSettings_cap (d : Dev) : d.takeBusSettings.cap = d.cap := rfl
@[simp] theorem Dev.takeBusSettings_mgt (d : Dev) : d.takeBusSettings.mgt = d.mgt := rfl
@[simp] theorem Dev.takeBusSettings_work (d : Dev) : d.takeBusSettings.work = d.work := rfl
@[simp] theorem Dev.takeBusSettings_ties (d : Dev) : d.takeBusSettings.ties = d.ties := rfl
@[simp] theorem Dev.takeBusSettings_breakers (d : Dev) : d.takeBusSettings.swm.breakers = d.swm.breakers := rfl
@[simp] theorem Dev.takeBusSettings_jobs (d : Dev) : d.takeBusSettings.swm.jobs = d.swm.jobs := rfl

/-- From an instant on a bus is measured by the group of its entry, and nothing else of it changes. -/
@[simp] theorem Dev.takeBusSettings_bus (d : Dev) (y : Fin 6) : d.takeBusSettings.bus y = { d.bus y with prior := none } := by
  simp [Dev.takeBusSettings, Dev.bus, tget]

@[simp] theorem BusRec.holdGroup_state (r : BusRec) (g : Nat) : (r.holdGroup g).state = r.state := rfl
@[simp] theorem BusRec.holdGroup_lastAt (r : BusRec) (g : Nat) : (r.holdGroup g).lastAt = r.lastAt := rfl
@[simp] theorem BusRec.holdGroup_prior (r : BusRec) (g : Nat) : (r.holdGroup g).prior = some (r.prior.getD g) := rfl

/-- What is carried of an element entry keeps its enable, its kind and its pickup. -/
theorem ElementEntry.canonical_enable (e : ElementEntry) : e.canonical.enable = e.enable := by
  unfold ElementEntry.canonical; split <;> rfl
theorem ElementEntry.canonical_kind (e : ElementEntry) : e.canonical.kind = e.kind := by
  unfold ElementEntry.canonical; split <;> rfl
theorem ElementEntry.canonical_pickup (e : ElementEntry) : e.canonical.pickup = e.pickup := by
  unfold ElementEntry.canonical; split <;> rfl
/-- A written record of a used or enabled entry is stored as written. -/
theorem ElementEntry.canonical_enabled (e : ElementEntry) (h : e.enable ≠ 0) : e.canonical = e := by simp [ElementEntry.canonical, h]
theorem StreamEntry.canonical_used (e : StreamEntry) (h : e.unused = false) : e.canonical = e := by simp [StreamEntry.canonical, h]
theorem StreamEntry.canonical_unused (e : StreamEntry) (h : e.unused = true) : e.canonical = {} := by simp [StreamEntry.canonical, h]
theorem BreakerEntry.canonical_used (e : BreakerEntry) (h : e.used = true) : e.canonical = e := by simp [BreakerEntry.canonical, h]
theorem BreakerEntry.canonical_unused (e : BreakerEntry) (h : e.used = false) : e.canonical = { lockout := e.lockout } := by
  simp [BreakerEntry.canonical, h]
theorem CaptureEntry.canonical_used (e : CaptureEntry) (h : e.count ≠ 0) : e.canonical = e := by simp [CaptureEntry.canonical, h]
theorem CaptureEntry.canonical_unused (e : CaptureEntry) (h : e.count = 0) : e.canonical = { e with pre := 0, post := 0 } := by
  simp [CaptureEntry.canonical, h]
@[simp] theorem Dev.modElement_element_same (d : Dev) (e : Fin 32) (f : ElementRec → ElementRec) :
    (d.modElement e f).element e = f (d.element e) := tget_tmod_same _ _ _
@[simp] theorem Dev.modElement_element_ne (d : Dev) (e x : Fin 32) (f : ElementRec → ElementRec) (h : x ≠ e) :
    (d.modElement e f).element x = d.element x := tget_tmod_ne _ _ _ _ h
@[simp] theorem Dev.modGen_gen_same (d : Dev) (g : Fin 6) (f : GenRec → GenRec) : (d.modGen g f).gen g = f (d.gen g) :=
  tget_tmod_same _ _ _
@[simp] theorem Dev.modGen_gen_ne (d : Dev) (g x : Fin 6) (f : GenRec → GenRec) (h : x ≠ g) :
    (d.modGen g f).gen x = d.gen x := tget_tmod_ne _ _ _ _ h
@[simp] theorem Dev.modStream_stream_same (d : Dev) (i : Fin 24) (f : StreamRec → StreamRec) :
    (d.modStream i f).stream i = f (d.stream i) := tget_tmod_same _ _ _
@[simp] theorem Dev.modStream_ring (d : Dev) (i : Fin 24) (f : StreamRec → StreamRec) :
    (d.modStream i f).sau.ring = d.sau.ring := rfl
@[simp] theorem Dev.modStream_silence (d : Dev) (i : Fin 24) (f : StreamRec → StreamRec) :
    (d.modStream i f).sau.silence = d.sau.silence := rfl

/-! ## The state -/

theorem State.whenRunning_running (s : State) (f : Dev → Dev) (h : s.power = .running) :
    s.whenRunning f = .next { s with dev := f s.dev } := by simp [State.whenRunning, h]

theorem State.whenRunning_stopped (s : State) (f : Dev → Dev) (h : s.power ≠ .running) : s.whenRunning f = .next s := by
  simp [State.whenRunning, h]

/-- What a command that acts while the part runs can do. -/
theorem State.whenRunning_next (s t : State) (f : Dev → Dev) (h : s.whenRunning f = .next t) :
    t = s ∧ s.power ≠ .running ∨ t = { s with dev := f s.dev } ∧ s.power = .running := by
  unfold State.whenRunning at h
  split at h <;> cases h
  · exact .inr ⟨rfl, ‹_›⟩
  · exact .inl ⟨rfl, ‹_›⟩

/-- Nothing is taken when nothing is reported. -/
@[simp] theorem Dev.flush_of_no_work (d : Dev) (h : d.work = []) : d.flush = d := by
  unfold Dev.flush drainLimit
  rw [Dev.drain.eq_def]
  simp [h]

end Sys2Proof.Machine
end

