-- ==== Sys2Proof/Laws/Keeps.lean ====
section
/-!
SUPPORT. Sys2Proof/Laws/Keeps.lean: what the operations keep. `Inner P` says that a property is kept by the updates that the blocks
make as they answer one another's requests; `Reports P` adds those made as their reports are taken. One lemma for each
operation then says that it keeps every such property. A frame (a view of the device is unchanged) and an invariant are both
such properties.
-/
namespace Sys2Proof.Machine

/-- What a controller has reported of a set, which only its GENSET frames and its age change (R154, R155). -/
def GenRec.report (r : GenRec) : Engine × Bool × Bool × Count32 × Bool := (r.engine, r.ready, r.manual, r.ageFrom, r.aged)

/-- What STATUS frames, forcing, age, instants and resets alone change of a breaker (R93, R94). -/
def BreakerRec.report (r : BreakerRec) : Position × ForcedBreaker × Bool × Bool × Count32 × Bool × Bool × BusState :=
  (r.reported, r.forced, r.inLocal, r.spring, r.ageFrom, r.aged, r.failedCfg, r.genSide)

/-- An update of a set's record that keeps its controller's report and its limits. -/
def GenRec.Tame (f : GenRec → GenRec) : Prop := ∀ r, (f r).report = r.report ∧ (r.inRange → (f r).inRange)

/-- An update of a port's record that keeps its link state and takes no frame out of transmission. -/
def PortRec.Tame (f : PortRec → PortRec) : Prop := ∀ r, (f r).up = r.up ∧ (r.tx.isSome → (f r).tx.isSome)

/-- The device with a notice in the queue, before the arbiter is run (R216). -/
def Dev.noticePut (d : Dev) (n : Notice) : Dev :=
  let d := if decide (Config.noticeCapacity ≤ d.mgt.notices.length) then
      (d.modMgt (fun m => { m with notices := m.notices.drop 1 })).noteError .noticeOverflow noSubject else d
  d.modMgt (fun m => { m with notices := m.notices ++ [n] })

/-- A property kept by the updates that requests between blocks make. -/
structure Inner (P : Dev → Prop) : Prop where
  port      : ∀ {d} p f, PortRec.Tame f → P d → P (d.modPort p f)
  popProt   : ∀ {d x xs}, d.lnk.protQueue = x :: xs → P d → P { d with lnk := { d.lnk with protQueue := xs } }
  popCtrl   : ∀ {d x xs}, d.lnk.ctrlQueue = x :: xs → P d → P { d with lnk := { d.lnk with ctrlQueue := xs } }
  popSet    : ∀ {d x xs}, d.lnk.setpoints = x :: xs → P d → P { d with lnk := { d.lnk with setpoints := xs } }
  pop12     : ∀ {d x xs}, d.lnk.fq12 = x :: xs → P d → P { d with lnk := { d.lnk with fq12 := xs } }
  pop21     : ∀ {d x xs}, d.lnk.fq21 = x :: xs → P d → P { d with lnk := { d.lnk with fq21 := xs } }
  putProt   : ∀ {d} b x, P d → P { d with lnk := { d.lnk with protQueue := putKey b x d.lnk.protQueue, ctrlQueue := dropKey b d.lnk.ctrlQueue } }
  putCtrl   : ∀ {d} b x, P d → P { d with lnk := { d.lnk with ctrlQueue := putKey b x d.lnk.ctrlQueue, protQueue := dropKey b d.lnk.protQueue } }
  dropCmd   : ∀ {d} b, P d → P { d with lnk := { d.lnk with protQueue := dropKey b d.lnk.protQueue, ctrlQueue := dropKey b d.lnk.ctrlQueue } }
  putSet    : ∀ {d} g x, P d → P { d with lnk := { d.lnk with setpoints := putKey g x d.lnk.setpoints } }
  service   : ∀ {d} (x : Mgt → Option Service) (y : Mgt → Bool), P d → P (d.modMgt (fun m => { m with service := x m, restartDue := y m }))
  popNotice : ∀ {d n ns}, d.mgt.notices = n :: ns → P d → P (d.modMgt (fun m => { m with notices := ns }))
  error     : ∀ {d} c n, P d → P (d.noteError c n)
  notice    : ∀ {d} n, P d → P (d.noticePut n)
  trigger   : ∀ {d} k n, P d → P (d.trigger k n)
  work      : ∀ {d} w, P d → P { d with work := w }
  ties      : ∀ {d} n, P d → P { d with ties := n }
  breaker   : ∀ {d} b f, (∀ r : BreakerRec, (f r).report = r.report) →
                ((d.breaker b).protOpens → (f (d.breaker b)).protOpens) → P d → P (d.modBreaker b f)
  jobs      : ∀ {d} js, P d → P { d with swm := { d.swm with jobs := js } }
  cause     : ∀ {d} t, P d → P { d with tab := { d.tab with causes := t } }
  gen       : ∀ {d} g f, GenRec.Tame f → P d → P (d.modGen g f)
  demand    : ∀ {d} n, P d → P { d with par := { d.par with demand := n } }
  grant     : ∀ {d} x, P d → P { d with par := { d.par with grant := x } }
  sync      : ∀ {d} x, P d → P { d with par := { d.par with sync := x } }
  busReq    : ∀ {d} x, P d → P { d with par := { d.par with busWaiting := x } }
  chg       : ∀ {d} (f : Chg → Chg), (∀ c, (f c).inhibit = c.inhibit ∧ (f c).sourceA = c.sourceA ∧ (f c).sourceB = c.sourceB
                ∧ (f c).overlap = c.overlap) → P d → P (d.modChg f)

/-! ## Tame updates -/

theorem GenRec.tame_id : GenRec.Tame id := fun _ => ⟨rfl, id⟩

theorem GenRec.tame_zero : GenRec.Tame GenRec.zero := fun _ => ⟨rfl, fun _ => by simp [GenRec.zero, GenRec.inRange]⟩

theorem clamp_ge (lo hi x : Int) (h : lo ≤ hi) : lo ≤ clamp lo hi x := by
  unfold clamp; split
  · omega
  · split <;> omega
theorem clamp_le (lo hi x : Int) (h : lo ≤ hi) : clamp lo hi x ≤ hi := by
  unfold clamp; split
  · omega
  · split <;> omega

theorem GenRec.tame_addSpeed (x : Int) : GenRec.Tame (fun r => r.addSpeed x) := fun r =>
  ⟨rfl, fun h => ⟨clamp_ge _ _ _ (by decide), clamp_le _ _ _ (by decide), h.2.2⟩⟩

theorem GenRec.tame_addVolt (x : Int) : GenRec.Tame (fun r => r.addVolt x) := fun r =>
  ⟨rfl, fun h => ⟨h.1, h.2.1, clamp_ge _ _ _ (by decide), clamp_le _ _ _ (by decide), h.2.2.2.2⟩⟩

theorem GenRec.tame_takeTargets (x : Int × Int × Bool) : GenRec.Tame (fun r => r.takeTargets x) := by
  intro r
  unfold GenRec.takeTargets
  split <;> exact ⟨rfl, fun h => ⟨h.1, h.2.1, h.2.2.1, h.2.2.2.1, by dsimp only; omega⟩⟩

/-- What every turn keeps, a `forEach` keeps. -/
theorem keeps_forEach {P : Dev → Prop} {α : Type} (xs : List α) (f : α → Dev → Dev) (hf : ∀ x d, P d → P (f x d)) {d : Dev}
    (h : P d) : P (forEach xs f d) := forEach_keeps P xs f d hf h

/-- What both branches have, the choice has. -/
theorem keeps_ite {P : Dev → Prop} {c : Prop} [Decidable c] {x y : Dev} (hx : P x) (hy : P y) : P (if c then x else y) := by
  split
  · exact hx
  · exact hy

variable {P : Dev → Prop} (S : Inner P) {d : Dev}
include S

namespace Inner

/-! ## The link unit -/

theorem startOwn (p : Port) (f : OutFrame) (h : P d) : P (d.startOwn p f) := S.port _ _ (fun _ => ⟨rfl, fun _ => rfl⟩) h
theorem startForward (p : Port) (f : EthFrame) (h : P d) : P (d.startForward p f) := S.port _ _ (fun _ => ⟨rfl, fun _ => rfl⟩) h
theorem segmentGone (e : SlotEntry) (h : P d) : P (d.segmentGone e) := S.service _ _ h
theorem takeSlot (p : Port) (e : SlotEntry) (h : P d) : P (d.takeSlot p e) :=
  S.segmentGone _ (S.startOwn _ _ (S.port _ _ (fun _ => ⟨rfl, id⟩) h))

theorem takeP1 (h : P d) : P d.takeP1 := by
  unfold Dev.takeP1
  split
  · exact S.startOwn _ _ (S.popProt ‹_› h)
  · exact S.startOwn _ _ (S.popCtrl ‹_› h)
  · exact S.startOwn _ _ (S.popSet ‹_› h)
  · exact S.takeSlot _ _ h
  · exact S.startForward _ _ (S.pop21 ‹_› h)
  · exact h

theorem takeP2 (h : P d) : P d.takeP2 := by
  unfold Dev.takeP2
  split
  · exact S.takeSlot _ _ h
  · split
    · split
      · exact S.startOwn _ _ (S.popNotice ‹_› h)
      · exact h
    · split
      · exact S.startForward _ _ (S.pop12 ‹_› h)
      · exact h

theorem arbitrate (p : Port) (h : P d) : P (d.arbitrate p) := by
  unfold Dev.arbitrate
  split
  · cases p
    · exact S.takeP1 h
    · exact S.takeP2 h
  · exact h

theorem setService (x : Option Service) (h : P d) : P (d.setService x) := S.service (fun _ => x) (fun m => m.restartDue) h

theorem nextSegment (p : Port) {e : SlotEntry} {d' : Dev} (hn : d.nextSegment p = some (e, d')) (h : P d) : P d' := by
  unfold Dev.nextSegment at hn
  split at hn
  · cases hn; exact S.port _ _ (fun _ => ⟨rfl, id⟩) h
  · split at hn
    · split at hn
      · cases hn; exact S.setService _ h
      · cases hn
    · cases hn

theorem countDiscarded (p : Port) (h : P d) : P (d.countDiscarded p) := S.port _ _ (fun _ => ⟨rfl, id⟩) h

theorem pump (n : Nat) (p : Port) (h : P d) : P (Dev.pump n p d) := by
  induction n generalizing d with
  | zero => exact h
  | succ n ih =>
    unfold Dev.pump
    split
    · exact h
    · split
      · exact h
      · rename_i hn
        have h1 := S.nextSegment p hn h
        split
        · exact ih (S.arbitrate p (S.port _ _ (fun _ => ⟨rfl, id⟩) h1))
        · exact ih (S.segmentGone _ (S.countDiscarded p h1))

theorem runPort (p : Port) (h : P d) : P (d.runPort p) := S.pump _ p (S.arbitrate p h)

theorem enqueueCommand (b : Fin 24) (prot : Bool) (f : OutFrame) (h : P d) : P (d.enqueueCommand b prot f) := by
  unfold Dev.enqueueCommand
  cases prot
  · exact S.runPort _ (S.putCtrl b f h)
  · exact S.runPort _ (S.putProt b f h)

theorem removeCommand (b : Fin 24) (h : P d) : P (d.removeCommand b) := S.dropCmd b h
theorem enqueueSetpoint (g : Fin 6) (f : OutFrame) (h : P d) : P (d.enqueueSetpoint g f) := S.runPort _ (S.putSet g f h)
theorem respond (q : Request) (r : Response) (h : P d) : P (d.respond q r) := S.runPort _ (S.setService _ h)

/-! ## Errors and notices -/

theorem queueNotice (kind subject : Nat) (detail : List Byte) (h : P d) : P (d.queueNotice kind subject detail) := by
  unfold Dev.queueNotice
  split
  · exact h
  · refine S.runPort _ ?_
    have := S.notice { kind := kind, subject := subject, ms := d.now, inst := d.sau.inst, detail := detail } h
    unfold Dev.noticePut at this
    by_cases hc : Config.noticeCapacity ≤ d.mgt.notices.length
    · simpa [hc] using this
    · simpa [hc] using this

theorem recordError (c : ErrorCode) (n : Nat) (h : P d) : P (d.recordError c n) := by
  unfold Dev.recordError
  split
  · exact S.error _ _ h
  · exact S.queueNotice _ _ _ (S.error _ _ h)

theorem push (r : Report) (h : P d) : P (d.push r) := S.work _ h
theorem storeJob (j : StoreJob) (h : P d) : P (d.storeJob j) := S.jobs _ h


/-! ## The switchgear map -/

theorem brk (b : Fin 24) (f : BreakerRec → BreakerRec) (hf : ∀ r, (f r).report = r.report ∧ (f r).record = r.record)
    (h : P d) : P (d.modBreaker b f) :=
  S.breaker b f (fun r => (hf r).1) (fun o c e => o c ((hf _).2 ▸ e)) h

theorem claim (b : Fin 24) (x : Holder) (h : P d) : P (d.claim b x).2 := by
  unfold Dev.claim
  split
  · exact S.brk _ _ (fun _ => ⟨rfl, rfl⟩) h
  · exact h

theorem dropClaim (b : Fin 24) (h : P d) : P (d.dropClaim b) := S.push _ (S.brk _ _ (fun _ => ⟨rfl, rfl⟩) h)

theorem releaseClaim (b : Fin 24) (x : Holder) (h : P d) : P (d.releaseClaim b x) := by
  unfold Dev.releaseClaim
  split
  · split
    · exact S.brk _ _ (fun _ => ⟨rfl, rfl⟩) h
    · exact S.dropClaim _ h
  · exact h

theorem releaseDue (b : Fin 24) (h : P d) : P (d.releaseDue b) := by
  unfold Dev.releaseDue
  split
  · split
    · exact S.dropClaim _ h
    · exact h
  · exact h

theorem startRecord (b : Fin 24) (a : Action) (p arm : Bool) (q : Requester) (o : p = true → a = .openIt) (h : P d) :
    P (d.startRecord b a p arm q) :=
  S.enqueueCommand _ _ _ (S.breaker _ _ (fun _ => rfl) (fun _ c e => by cases e; exact o) h)

theorem reportEnd (b : Fin 24) (r : CmdRecord) (e : RecordEnd) (h : P d) : P (d.reportEnd b r e) := by
  unfold Dev.reportEnd
  split
  · have h1 : P (if r.tellChg then d.push (.protOpenEnded b r.id r.action e) else d) := keeps_ite (S.push _ h) h
    exact keeps_ite (S.push _ h1) h1
  · split
    · exact keeps_ite (S.dropClaim _ h) h
    · exact S.push _ h
    · exact h

theorem endRecord (b : Fin 24) (e : RecordEnd) (h : P d) : P (d.endRecord b e) := by
  unfold Dev.endRecord
  split
  · exact h
  · have h1 := S.reportEnd b ‹CmdRecord› e (S.removeCommand b (S.breaker b (fun x => { x with record := none, outcome := e })
      (fun _ => rfl) (fun _ _ e => nomatch e) h))
    dsimp only
    split
    · exact S.push _ h1
    · exact h1

theorem joinRecord (b : Fin 24) (r : CmdRecord) (q : OpRequest) (hr : (d.breaker b).record = some r) (h : P d) :
    P (d.joinRecord b r q) :=
  S.breaker _ _ (fun _ => rfl) (fun o c e => by cases e; exact o r hr) h

theorem accept (q : OpRequest) (o : q.prot = true → q.action = .openIt) (h : P d) : P (d.accept q).2 := by
  unfold Dev.accept
  split
  · split
    · exact S.joinRecord _ _ _ ‹_› h
    · exact S.startRecord _ _ _ _ _ o (S.endRecord _ _ h)
  · exact S.startRecord _ _ _ _ _ o h

theorem requestClaimed (q : OpRequest) (x : Holder) (o : q.prot = true → q.action = .openIt) (h : P d) :
    P (d.requestClaimed q x).2 := by
  unfold Dev.requestClaimed
  dsimp only
  split
  · rename_i d' hc
    have h1 : P d' := by have := S.claim q.breaker x h; rwa [hc] at this
    split
    · dsimp only
      split
      · exact S.dropClaim _ h1
      · exact h
    · exact S.accept q o h1
  · exact h

/-- A request for a protection operation asks for an OPEN (R84, R114, R145). -/
theorem request (q : OpRequest) (h : P d) (o : q.prot = true → q.action = .openIt := by first | exact fun _ => rfl | exact nofun) :
    P (d.request q).2 := by
  unfold Dev.request
  split
  · exact h
  · split
    · split
      · exact h
      · exact S.requestClaimed _ _ o h
    · exact S.accept q o h

theorem request_of {q : OpRequest} {a : Answer} {d' : Dev} (hq : d.request q = (a, d')) (h : P d)
    (o : q.prot = true → q.action = .openIt := by first | exact fun _ => rfl | exact nofun) : P d' := by
  have := S.request q h o
  rwa [hq] at this

theorem claim_of {b : Fin 24} {x : Holder} {a : ClaimOutcome} {d' : Dev} (hq : d.claim b x = (a, d')) (h : P d) : P d' := by
  have := S.claim b x h
  rwa [hq] at this

theorem protOpen (b : Fin 24) (arm : Bool) (q : Requester) (h : P d) : P (d.protOpen b arm q) := S.request _ h

theorem commandRepeat (b : Fin 24) (h : P d) : P (d.commandRepeat b) := by
  unfold Dev.commandRepeat
  split
  · exact h
  · rename_i r hr
    split
    · exact S.enqueueCommand _ _ _ (S.breaker _ _ (fun _ => rfl) (fun o c e => by cases e; exact o r hr) h)
    · exact h

theorem confirm (b : Fin 24) (p : Position) (h : P d) : P (d.confirm b p) := by
  unfold Dev.confirm
  split
  · split
    · exact S.endRecord _ _ h
    · exact h
  · exact h

theorem reportPosition (b : Fin 24) (c : Bool) (h : P d) : P (d.reportPosition b c) := by
  unfold Dev.reportPosition
  split
  · exact S.push _ h
  · exact h

/-! ## The paralleling unit -/

theorem endService (h : P d) : P d.endService := S.push _ (S.sync _ h)
theorem releaseGrant (h : P d) : P d.releaseGrant := S.push _ (S.grant _ h)

theorem leaveGrant (s : GenState) (h : P d) : P (d.leaveGrant s) := by
  unfold Dev.leaveGrant
  split
  · exact S.grant _ h
  · exact S.releaseGrant h

theorem moveGen (g : Fin 6) (s : GenState) (f : GenRec → GenRec) (hf : GenRec.Tame f) (h : P d) : P (d.moveGen g s f) := by
  unfold Dev.moveGen
  have h0 : P (d.modGen g (fun r => f { r with state := s, timer := if (d.gen g).state.inSync && s.inSync then r.timer else none })) :=
    S.gen g _ (fun _ => hf _) h
  refine keeps_ite (S.push _ ?_) ?_ <;> refine keeps_ite (S.push _ ?_) ?_ <;> refine keeps_ite (S.endService ?_) ?_ <;>
    exact keeps_ite (S.leaveGrant s h0) h0

theorem sendSetpoint (g : Fin 6) (run : Bool) (x y : Int) (h : P d) : P (d.sendSetpoint g run x y) := S.enqueueSetpoint _ _ h

theorem openUnjudged (g : Fin 6) (b : Fin 24) (h : P d) : P (d.openUnjudged g b) := by
  unfold Dev.openUnjudged
  split
  · exact S.gen _ _ (fun _ => ⟨rfl, id⟩) (S.request_of ‹_› h)
  · exact S.request_of ‹_› h

theorem openFailed (g : Fin 6) (b : Fin 24) (h : P d) : P (d.openFailed g b) := by
  unfold Dev.openFailed
  split
  · exact S.gen _ _ (fun _ => ⟨rfl, id⟩) h
  · exact h
  · exact keeps_ite (S.openUnjudged _ _ h) h

theorem failGen (g : Fin 6) (r : GenReason) (h : P d) : P (d.failGen g r) := by
  unfold Dev.failGen
  refine keeps_ite h ?_
  have h0 : P (d.moveGen g .failed (fun x => { x with reason := r, wantClaim := false })) :=
    S.moveGen _ _ _ (fun _ => ⟨rfl, id⟩) h
  refine S.queueNotice _ _ _ (S.recordError _ _ (S.gen _ _ GenRec.tame_zero ?_))
  have h1 : P (match (d.moveGen g .failed (fun x => { x with reason := r, wantClaim := false })).genBreaker g with
      | some b => ((d.moveGen g .failed (fun x => { x with reason := r, wantClaim := false })).openFailed g b).releaseClaim b .par
      | none => d.moveGen g .failed (fun x => { x with reason := r, wantClaim := false })) := by
    split
    · exact S.releaseClaim _ _ (S.openFailed _ _ h0)
    · exact h0
  exact keeps_ite h1 (S.sendSetpoint _ _ _ _ h1)

theorem toStopped (g : Fin 6) (h : P d) : P (d.toStopped g) := by
  unfold Dev.toStopped
  have h0 : P (d.moveGen g .stopped (fun r => { r.zero with reason := .none, wantClaim := false })) :=
    S.moveGen _ _ _ (fun r => ⟨rfl, (GenRec.tame_zero r).2⟩) h
  dsimp only
  split
  · exact S.releaseClaim _ _ h0
  · exact h0

theorem judgeStopping (g : Fin 6) (h : P d) : P (d.judgeStopping g) := by
  unfold Dev.judgeStopping
  split
  · exact S.toStopped _ h
  · exact S.failGen _ _ h
  · exact h

theorem toStopping (g : Fin 6) (h : P d) : P (d.toStopping g) :=
  S.judgeStopping _ (S.sendSetpoint _ _ _ _ (S.moveGen _ _ _ GenRec.tame_id h))

theorem toCooldown (g : Fin 6) (h : P d) : P (d.toCooldown g) := by
  have h0 : P (d.moveGen g .cooldown (fun r => { r with timer := some (after d.now ((d.genCfg g).cooldown * 1000)) })) :=
    S.moveGen _ _ _ (fun _ => ⟨rfl, id⟩) h
  exact keeps_ite (S.toStopping _ h0) h0

theorem toOpening (g : Fin 6) (h : P d) : P (d.toOpening g) := by
  have h0 : P (d.moveGen g .opening id) := S.moveGen _ _ _ GenRec.tame_id h
  unfold Dev.toOpening
  dsimp only
  split
  · exact h0
  · refine keeps_ite (S.toCooldown _ h0) ?_
    split
    · exact S.gen _ _ (fun _ => ⟨rfl, id⟩) (S.request_of ‹_› h0)
    · exact S.failGen _ _ (S.request_of ‹_› h0)

theorem toUnloading (g : Fin 6) (h : P d) : P (d.toUnloading g) := by
  unfold Dev.toUnloading
  refine keeps_ite (S.moveGen _ _ _ ?_ h) (S.moveGen _ _ _ GenRec.tame_id h)
  exact fun r => ⟨rfl, fun h => ⟨h.1, h.2.1, h.2.2.1, h.2.2.2.1, by dsimp only; omega⟩⟩

theorem toDeadBusWait (g : Fin 6) (h : P d) : P (d.toDeadBusWait g) := S.push _ (S.moveGen _ _ _ GenRec.tame_id h)
theorem toSyncWait (g : Fin 6) (h : P d) : P (d.toSyncWait g) := S.push _ (S.moveGen _ _ _ (fun _ => ⟨rfl, id⟩) h)

theorem routeGen (g : Fin 6) (h : P d) : P (d.routeGen g) := by
  unfold Dev.routeGen
  split
  · exact S.toDeadBusWait _ h
  · exact S.toSyncWait _ h
  · exact h

theorem judgeStarting (g : Fin 6) (h : P d) : P (d.judgeStarting g) :=
  keeps_ite (S.routeGen _ (S.moveGen _ _ _ GenRec.tame_id h)) h

theorem claimGen (g : Fin 6) (h : P d) : P (d.claimGen g) := by
  unfold Dev.claimGen
  split
  · exact h
  · split
    · exact S.judgeStarting _ (S.gen _ _ (fun _ => ⟨rfl, id⟩) (S.claim_of ‹_› h))
    · exact S.gen _ _ (fun _ => ⟨rfl, id⟩) (S.claim_of ‹_› h)

theorem toStarting (g : Fin 6) (h : P d) : P (d.toStarting g) :=
  S.claimGen _ (S.moveGen _ _ _ (fun r => ⟨rfl, (GenRec.tame_zero r).2⟩) h)

theorem startSets (gs : List (Fin 6)) (h : P d) : P (d.startSets gs) :=
  keeps_forEach _ _ (fun _ _ h => keeps_ite (S.toStarting _ h) h) h

theorem shedSet (g : Fin 6) (h : P d) : P (d.shedSet g) := by
  unfold Dev.shedSet
  split
  · exact S.toStopping _ h
  all_goals first
    | exact S.toCooldown _ h
    | exact keeps_ite (S.toOpening _ h) (S.toUnloading _ h)
    | exact h

theorem shedSets (gs : List (Fin 6)) (h : P d) : P (d.shedSets gs) :=
  keeps_forEach _ _ (fun _ _ h => keeps_ite (S.shedSet _ h) h) h

theorem meetDemand (h : P d) : P d.meetDemand := keeps_ite (S.shedSets _ (S.startSets _ h)) h

theorem returnToBus (g : Fin 6) (h : P d) : P (d.returnToBus g) := by
  unfold Dev.returnToBus
  split
  · exact S.moveGen _ _ _ GenRec.tame_id h
  · exact S.moveGen _ _ _ GenRec.tame_id h
  · exact h

theorem setDemand (n : Nat) (start : Bool) (h : P d) : P (d.setDemand n start) :=
  S.meetDemand (S.demand _ (keeps_ite (keeps_forEach _ _ (fun _ _ h => S.returnToBus _ h) h) h))

theorem lossCause (h : P d) : P d.lossCause :=
  keeps_forEach _ _ (fun _ _ h => keeps_ite (S.moveGen _ _ _ GenRec.tame_id h) h) h

theorem genClosing (g : Fin 6) (id : Count16) (h : P d) : P (d.genClosing g id) :=
  S.trigger _ _ (S.moveGen _ _ _ (fun _ => ⟨rfl, fun h => h⟩) h)

theorem giveGrant (g : Fin 6) (h : P d) : P (d.giveGrant g) := by
  unfold Dev.giveGrant
  split
  · exact h
  · have h0 : P { d with par := { d.par with grant := some g } } := S.grant _ h
    dsimp only
    split
    · exact S.genClosing _ _ (S.request_of ‹_› h0)
    · exact S.toSyncWait _ (S.request_of ‹_› h0)
    · exact S.releaseGrant (S.request_of ‹_› h0)
    · exact S.failGen _ _ (S.request_of ‹_› h0)

theorem judgeGrant (h : P d) : P d.judgeGrant := by
  unfold Dev.judgeGrant
  split
  · split
    · exact S.giveGrant _ h
    · exact h
  · exact h

theorem serve (r : SyncReq) (h : P d) : P (d.serve r) := by
  unfold Dev.serve
  have h0 := S.sync { d.par.sync with served := some r, accepted := false, met := 0, slipOk := false, voltOk := false } h
  dsimp only
  split
  · exact S.busReq none h0
  · exact S.moveGen _ _ _ GenRec.tame_id h0

theorem examineSync (h : P d) : P d.examineSync := by
  unfold Dev.examineSync
  split
  · split
    · exact S.serve _ h
    · exact h
  · exact h

theorem placeBusRequest (r : BusRequest) (h : P d) : P (d.placeBusRequest r) := S.push _ (S.busReq _ h)

theorem withdrawBusRequest (h : P d) : P d.withdrawBusRequest :=
  keeps_ite (S.endService (S.busReq none h)) (S.busReq none h)

theorem busAccepted (h : P d) : P d.busAccepted := keeps_ite (S.sync _ h) h
theorem busEnded (h : P d) : P d.busEnded := keeps_ite (S.endService h) h

theorem genResult (g : Fin 6) (first : Count32) (h : P d) : P (d.genResult g first) := by
  unfold Dev.genResult
  split
  · exact h
  · split
    · exact S.genClosing _ _ (S.sync _ (S.request_of ‹_› h))
    · exact S.request_of ‹_› h
    · exact S.endService (S.moveGen _ _ _ GenRec.tame_id (S.request_of ‹_› h))
    · exact S.failGen _ _ (S.request_of ‹_› h)

theorem syncInstant (h : P d) : P d.syncInstant := by
  unfold Dev.syncInstant
  split
  · exact h
  · have h0 := S.sync (d.syncValues ‹_›) h
    dsimp only
    refine keeps_ite ?_ h0
    split
    · exact S.genResult _ _ h0
    · exact S.push _ h0

theorem syncInvalidate (qs : List (Fin 96)) (h : P d) : P (d.syncInvalidate qs) := by
  unfold Dev.syncInvalidate
  split
  · exact h
  · exact keeps_ite (S.sync _ h) h

theorem parInstant (h : P d) : P d.parInstant :=
  keeps_ite (S.examineSync (S.syncInstant (S.judgeGrant (keeps_forEach _ _ (fun _ _ h => S.judgeStarting _ h) h)))) h

theorem judgeBusReport (g : Fin 6) (h : P d) : P (d.judgeBusReport g) := by
  unfold Dev.judgeBusReport
  split
  · exact S.routeGen _ h
  · exact keeps_ite h (S.toSyncWait _ h)
  · exact S.toDeadBusWait _ h
  · exact S.toDeadBusWait _ h
  · exact h

theorem parBus (y : Fin 6) (h : P d) : P (d.parBus y) :=
  keeps_ite (S.judgeGrant (keeps_ite (keeps_forEach _ _ (fun _ _ h => S.judgeBusReport _ h) h) h)) h

theorem parPosition (b : Fin 24) (h : P d) : P (d.parPosition b) := by
  unfold Dev.parPosition
  split
  · exact h
  · split
    all_goals first
      | exact keeps_ite (S.failGen _ _ h) h
      | exact h

theorem parTrip (b : Fin 24) (h : P d) : P (d.parTrip b) := by
  unfold Dev.parTrip
  split
  · exact h
  · split
    all_goals first
      | exact h
      | exact S.failGen _ _ h

theorem parClaimReleased (b : Fin 24) (h : P d) : P (d.parClaimReleased b) := by
  unfold Dev.parClaimReleased
  split
  · exact h
  · exact keeps_ite (S.claimGen _ h) h

theorem closeEnded (g : Fin 6) (e : RecordEnd) (h : P d) : P (d.closeEnded g e) := by
  unfold Dev.closeEnded
  split
  · exact S.moveGen _ _ _ (GenRec.tame_takeTargets _) h
  · exact S.failGen _ _ h
  · exact S.failGen _ _ h

theorem openEnded (g : Fin 6) (e : RecordEnd) (h : P d) : P (d.openEnded g e) := by
  unfold Dev.openEnded
  split
  · exact S.toCooldown _ h
  · exact S.failGen _ _ h
  · exact S.failGen _ _ h

theorem failedCloseEnded (g : Fin 6) (b : Fin 24) (e : RecordEnd) (h : P d) : P (d.failedCloseEnded g b e) := by
  unfold Dev.failedCloseEnded
  have h0 : P (d.modGen g (fun r => { r with openOnDone := false })) := S.gen _ _ (fun _ => ⟨rfl, id⟩) h
  have h1 := S.openUnjudged g b h0
  exact keeps_ite (keeps_ite (S.releaseClaim _ _ h1) h1) h0

theorem parRecordEnded (b : Fin 24) (id : Count16) (a : Action) (e : RecordEnd) (h : P d) : P (d.parRecordEnded b id a e) := by
  unfold Dev.parRecordEnded
  split
  · exact h
  · rename_i g _
    have h0 : P (if decide ((d.gen g).cmdId = some id) then d.modGen g (fun r => { r with cmdId := none }) else d) :=
      keeps_ite (S.gen _ _ (fun _ => ⟨rfl, fun h => h⟩) h) h
    dsimp only
    refine keeps_ite (S.failedCloseEnded _ _ _ h0) ?_
    split
    · exact keeps_ite (S.closeEnded _ _ h0) h0
    · exact keeps_ite (S.openEnded _ _ h0) h0
    · exact h0

theorem drawTie (h : P d) : P d.drawTie.2 := S.ties _ h

theorem expireStart (g : Fin 6) (h : P d) : P (d.expireStart g) := keeps_ite (S.failGen _ _ h) h
theorem expireSync (g : Fin 6) (h : P d) : P (d.expireSync g) := keeps_ite (S.failGen _ _ h) h
theorem expireCooldown (g : Fin 6) (h : P d) : P (d.expireCooldown g) := keeps_ite (S.toStopping _ h) h

theorem genReset (g : Fin 6) (h : P d) : P (d.genReset g).2 := by
  unfold Dev.genReset
  split
  · exact h
  · split
    · split
      · exact h
      · exact S.toStopped _ h
    · exact h

end Inner
end Sys2Proof.Machine
end

