-- ==== Sys2Proof/Laws/KeepsChg.lean ====
section
/-!
SUPPORT. Sys2Proof/Laws/KeepsChg.lean: what the changeover sequencer's operations and the taking of reports keep.
-/
namespace Sys2Proof.Machine

/-- An update of CHG that leaves its inhibit flag, its source records and its overlap record. -/
def Chg.Tame (f : Chg → Chg) : Prop :=
  ∀ c, (f c).inhibit = c.inhibit ∧ (f c).sourceA = c.sourceA ∧ (f c).sourceB = c.sourceB ∧ (f c).overlap = c.overlap

/-- A property also kept by the updates of source and overlap records that reports lead to. -/
structure Reports (P : Dev → Prop) : Prop extends Inner P where
  chgAny : ∀ {d} (f : Chg → Chg), (∀ c, (f c).inhibit = c.inhibit) → P d → P (d.modChg f)

/-! ## How the sequencer goes on -/

theorem Dev.advance_zero (x : Progress × Dev) : Dev.advance 0 x = x.2 := rfl
theorem Dev.advance_waiting (n : Nat) (d : Dev) : Dev.advance n (.waiting, d) = d := by cases n <;> rfl
theorem Dev.advance_failed (n : Nat) (r : FailReason) (f : Refused) (d : Dev) :
    Dev.advance (n + 1) (.failed r f, d) = d.failScheme r f := rfl
theorem Dev.advance_completed (n : Nat) (d : Dev) : Dev.advance (n + 1) (.completed, d) =
    Dev.advance n (Dev.beginStep (d.modTransfer (fun t => { t with index := t.index + 1 }))) := rfl

/-- The pending causes have been gone through (R134). -/
def Dev.pendingTaken (d : Dev) : Dev :=
  d.modChg (fun c => { c with pending := (d.pickPending pendingOrder (d.chg.pending.filter d.causeHolds)).2 })

theorem Dev.advance_ended (n : Nat) (d : Dev) : Dev.advance (n + 1) (.ended, d) =
    match (d.pickPending pendingOrder (d.chg.pending.filter d.causeHolds)).1 with
    | some (c, s) => Dev.advance n (d.pendingTaken.startScheme s (some c)).beginStep
    | none => d.pendingTaken.modChg (fun c => { c with state := .idle }) := rfl

namespace Inner
variable {P : Dev → Prop} (S : Inner P) {d : Dev}
include S

theorem modTransfer (f : Transfer → Transfer) (h : P d) : P (d.modTransfer f) := S.chg _ (fun _ => ⟨rfl, rfl, rfl, rfl⟩) h

theorem releaseClaims (h : P d) : P d.releaseClaims :=
  keeps_forEach _ _ (fun _ _ h => S.releaseClaim _ _ h) (S.chg _ (fun _ => ⟨rfl, rfl, rfl, rfl⟩) h)

theorem noticeEnd (h : P d) : P d.noticeEnd := by
  unfold Dev.noticeEnd
  split
  · exact S.queueNotice _ _ _ h
  · exact h

theorem failScheme (r : FailReason) (f : Refused) (h : P d) : P (d.failScheme r f) := by
  have h1 := S.releaseClaims (S.withdrawBusRequest
    (S.modTransfer (fun t => { t with result := .failed, reason := r, refusal := f }) h))
  have h2 := S.chg (fun c => { c with pending := [] }) (fun _ => ⟨rfl, rfl, rfl, rfl⟩) h1
  have h3 : ∀ {x : Dev}, P x → P ((x.recordError .schemeFailed x.schemeId).noticeEnd.modChg (fun c => { c with state := .failed })) :=
    fun hx => S.chg _ (fun _ => ⟨rfl, rfl, rfl, rfl⟩) (S.noticeEnd (S.recordError _ _ hx))
  exact h3 h2

theorem abortScheme (h : P d) : P d.abortScheme := S.noticeEnd (S.releaseClaims (S.withdrawBusRequest (S.modTransfer _ h)))

theorem writeCause (c : Fin 5) (v : Nat) (h : P d) : P (d.writeCause c v) := S.storeJob _ (S.cause _ h)

theorem waitBreaker (busy : Bool) (t : Count32) (h : P d) : P (d.waitBreaker busy t) := S.modTransfer _ h

theorem takeAnswer (x : Answer × Dev) (h : P x.2) : P (Dev.takeAnswer x).2 := by
  unfold Dev.takeAnswer
  split
  · exact S.modTransfer _ h
  · exact S.waitBreaker _ _ h
  · exact S.waitBreaker _ _ h
  · exact h

theorem askStep (b : Fin 24) (a : Action) (h : P d) : P (d.askStep b a).2 := S.takeAnswer _ (S.request _ h)

theorem referenceIsFirst (s t : SourceSet) (h : P d) : P (d.referenceIsFirst s t).2 := by
  unfold Dev.referenceIsFirst
  split
  · exact S.drawTie h
  · exact h

theorem placeSync (b : Fin 24) (h : P d) : P (d.placeSync b).2 :=
  S.placeBusRequest _ (S.modTransfer _ (S.referenceIsFirst _ _ h))

theorem closeSync (b : Fin 24) (h : P d) : P (d.closeSync b).2 := by
  unfold Dev.closeSync
  split
  · exact h
  · split
    · exact S.askStep _ _ (S.modTransfer _ h)
    · split
      · exact S.modTransfer _ h
      · exact S.placeSync _ h

theorem proceed (k : Nat) (b : Fin 24) (h : P d) : P (d.proceed k b).2 := by
  unfold Dev.proceed
  split
  · split
    · exact h
    · exact S.askStep _ _ h
  · split
    · exact h
    · exact S.askStep _ _ h
  · exact S.closeSync _ h

theorem claimStep (t : Transfer) (b : Fin 24) (h : P d) : P (d.claimStep t b).2 := by
  unfold Dev.claimStep
  split
  · exact S.proceed _ _ (S.chg _ (fun _ => ⟨rfl, rfl, rfl, rfl⟩) (S.claim_of ‹_› h))
  · exact S.waitBreaker _ _ (S.claim_of ‹_› h)

theorem endScheme (e : StepEntry) (h : P d) : P (d.endScheme e) := by
  have h0 : P (if e.cond = 1 then (toId 5 e.object).elim d (fun c => d.writeCause c e.link) else d) := by
    refine keeps_ite ?_ h
    cases toId 5 e.object
    · exact h
    · exact S.writeCause _ _ h
  exact S.releaseClaims (S.noticeEnd (S.modTransfer _ h0))

theorem beginStep (h : P d) : P d.beginStep.2 := by
  have h0 : P (d.modTransfer (fun t => t.begin d.now)) := S.modTransfer _ h
  unfold Dev.beginStep
  dsimp only
  split
  · exact h0
  · split
    · exact S.claimStep _ _ h0
    · split
      · split
        · exact h0
        · exact h0
      · exact h0
      · dsimp only; exact S.setDemand _ _ h0
      · dsimp only; exact S.setDemand _ _ h0
      · dsimp only; exact S.endScheme _ h0

theorem startScheme (s : Fin 8) (c : Option Cause) (h : P d) : P (d.startScheme s c) :=
  S.trigger _ _ (S.queueNotice _ _ _ (S.chg _ (fun _ => ⟨rfl, rfl, rfl, rfl⟩) h))

theorem advance (n : Nat) (x : Progress × Dev) (h : P x.2) : P (Dev.advance n x) := by
  induction n generalizing x with
  | zero => rw [Dev.advance_zero]; exact h
  | succ n ih =>
    rcases x with ⟨p, d⟩
    cases p with
    | waiting => rw [Dev.advance_waiting]; exact h
    | failed r f => rw [Dev.advance_failed]; exact S.failScheme _ _ h
    | completed => rw [Dev.advance_completed]; exact ih _ (S.beginStep (S.modTransfer _ h))
    | ended =>
      have h0 : P d.pendingTaken := S.chg _ (fun _ => ⟨rfl, rfl, rfl, rfl⟩) h
      rw [Dev.advance_ended]
      split
      · exact ih _ (S.beginStep (S.startScheme _ _ h0))
      · exact S.chg _ (fun _ => ⟨rfl, rfl, rfl, rfl⟩) h0

theorem goOn (x : Progress × Dev) (h : P x.2) : P (Dev.goOn x) := S.advance advanceLimit x h

theorem runScheme (s : Fin 8) (c : Option Cause) (h : P d) : P (d.runScheme s c) := S.goOn _ (S.beginStep (S.startScheme _ _ h))

theorem addPending (x : Cause) (h : P d) : P (d.modChg (fun c => c.addPending x)) := by
  refine S.chg _ (fun c => ?_) h
  unfold Chg.addPending
  split <;> exact ⟨rfl, rfl, rfl, rfl⟩

theorem takeCause (c : Cause) (h : P d) : P (d.takeCause c) := by
  unfold Dev.takeCause
  split
  · split
    · exact S.runScheme _ _ h
    · exact h
  · split
    · exact keeps_ite (S.runScheme _ _ (S.abortScheme h)) (S.addPending c h)
    · exact S.addPending c h
  · exact h

theorem raiseCause (c : Cause) (h : P d) : P (d.raiseCause c) := S.takeCause c (keeps_ite (S.lossCause h) h)

theorem retryStep (b : Fin 24) (h : P d) : P (d.retryStep b) := by
  unfold Dev.retryStep
  split
  · exact keeps_ite (S.goOn _ (S.claimStep _ _ h)) h
  · exact h

theorem retestAwait (cs : List Nat) (o : Option Nat) (h : P d) : P (d.retestAwait cs o) := by
  unfold Dev.retestAwait
  split
  · exact keeps_ite (S.goOn _ h) h
  · exact h

theorem overlapGone (h : P d) : P d.overlapGone := by
  unfold Dev.overlapGone
  split
  · split
    · split
      · exact S.goOn _ (S.closeSync _ h)
      · exact h
    · exact h
  · exact h

theorem takeSyncResult (b : Fin 24) (x y : Count32) (h : P d) : P (d.takeSyncResult b x y) := by
  unfold Dev.takeSyncResult
  split
  · split
    · split
      · exact S.request_of ‹_› h
      · exact S.goOn _ (S.takeAnswer _ (S.busAccepted (S.request_of ‹_› h)))
      · exact S.goOn _ (S.takeAnswer _ (S.withdrawBusRequest (S.request_of ‹_› h)))
    · exact h
  · exact h

theorem overlapOpen (o : Overlap) (h : P d) : P (d.overlapOpen o) := by
  unfold Dev.overlapOpen
  split
  · exact S.protOpen _ _ _ h
  · exact h

theorem expireStepWait (h : P d) : P d.expireStepWait := by
  unfold Dev.expireStepWait
  split
  · exact keeps_ite (S.goOn _ h) h
  · exact h

theorem expireStepSync (h : P d) : P d.expireStepSync := by
  unfold Dev.expireStepSync
  split
  · exact keeps_ite (S.goOn _ h) h
  · exact h

theorem expireAwait (h : P d) : P d.expireAwait := by
  unfold Dev.expireAwait
  split
  · split
    · split
      · exact S.goOn _ h
      · exact S.goOn _ (S.beginStep (S.modTransfer _ h))
    · exact h
  · exact h

theorem expireDelay (h : P d) : P d.expireDelay := by
  unfold Dev.expireDelay
  split
  · exact keeps_ite (S.goOn _ h) h
  · exact h

theorem opRunScheme (s : Fin 8) (h : P d) : P (d.opRunScheme s).2 := by
  unfold Dev.opRunScheme
  split
  · exact S.runScheme _ _ h
  · exact h
  · exact h

end Inner

namespace Reports
variable {P : Dev → Prop} (S : Reports P) {d : Dev}
include S

theorem modSource (u : Utility) (f : SourceRec → SourceRec) (h : P d) : P (d.modChg (fun c => c.modSource u f)) :=
  S.chgAny _ (fun _ => by cases u <;> rfl) h

theorem setSource (u : Utility) (s : SourceState) (t : SourceTimer) (h : P d) : P (d.setSource u s t) := S.modSource _ _ h
theorem modTimer (u : Utility) (f : SourceTimer → SourceTimer) (h : P d) : P (d.modTimer u f) := S.modSource _ _ h

theorem applyJudgement (u : Utility) (j : Judgement) (h : P d) : P (d.applyJudgement u j) := by
  have h0 : P (d.modChg (fun c => c.modSource u (fun r => { r with judgement := j }))) := S.modSource _ _ h
  unfold Dev.applyJudgement
  dsimp only
  split
  · exact S.modTimer _ _ h0
  · exact S.setSource _ _ _ h0
  · exact S.raiseCause _ (S.setSource _ _ _ h0)
  all_goals first
    | exact S.setSource _ _ _ h0
    | exact S.modTimer _ _ h0
    | exact h0

theorem judgeSource (u : Utility) (h : P d) : P (d.judgeSource u) := keeps_ite h (S.applyJudgement _ _ h)

theorem expireSourceTimer (u : Utility) (h : P d) : P (d.expireSourceTimer u) := by
  unfold Dev.expireSourceTimer
  split
  · exact keeps_ite (keeps_ite (S.raiseCause _ (S.setSource _ _ _ h)) (S.raiseCause _ (S.setSource _ _ _ h))) h
  · exact h

theorem chgInstant (h : P d) : P d.chgInstant := S.judgeSource _ (S.judgeSource _ h)
theorem takeMark (u : Utility) (on : Bool) (h : P d) : P (d.takeMark u on) := S.judgeSource _ (S.modSource _ _ h)

theorem noteIndeterminate (u : Utility) (h : P d) : P (d.noteIndeterminate u) := by
  unfold Dev.noteIndeterminate
  split
  · exact h
  · exact keeps_ite (keeps_ite h (S.modSource _ _ (S.recordError _ _ h))) (S.modSource _ _ h)

theorem makeOverlap (t : Transfer) (b : Fin 24) (h : P d) : P (d.makeOverlap t b) := by
  unfold Dev.makeOverlap
  exact keeps_ite h (S.chgAny _ (fun _ => rfl) h)

theorem reexamine (h : P d) : P d.reexamine := by
  unfold Dev.reexamine
  split
  · exact keeps_ite h (S.overlapGone (S.chgAny _ (fun _ => rfl) h))
  · exact h

theorem chgPosition (b : Fin 24) (h : P d) : P (d.chgPosition b) := S.retestAwait _ _ (S.retryStep _ (S.reexamine h))

theorem sourceBus (u : Utility) (y : Fin 6) (h : P d) : P (d.sourceBus u y) :=
  keeps_ite (S.judgeSource _ (S.noteIndeterminate _ h)) h

theorem chgBus (y : Fin 6) (h : P d) : P (d.chgBus y) := S.retestAwait _ _ (S.sourceBus _ _ (S.sourceBus _ _ h))

theorem stepRecordEnded (t : Transfer) (b : Fin 24) (e : RecordEnd) (h : P d) : P (d.stepRecordEnded t b e) := by
  have h0 : P (if t.step.kind = 3 then d.busEnded else d) := keeps_ite (S.busEnded h) h
  unfold Dev.stepRecordEnded
  dsimp only
  split
  · exact S.goOn _ (keeps_ite (S.makeOverlap _ _ h0) h0)
  · exact S.goOn _ h0
  · exact S.goOn _ h0

theorem chgRecordEnded (b : Fin 24) (id : Count16) (e : RecordEnd) (h : P d) : P (d.chgRecordEnded b id e) := by
  unfold Dev.chgRecordEnded
  split
  · exact keeps_ite (S.stepRecordEnded _ _ _ h) (S.retryStep _ h)
  · exact h

theorem overlapFail (o : Overlap) (h : P d) : P (d.overlapFail o) := by
  have h0 : P ((d.recordError .overlapExceeded o.breaker.val).modChg (fun c => { c with overlap := none })) :=
    S.chgAny _ (fun _ => rfl) (S.recordError _ _ h)
  unfold Dev.overlapFail
  dsimp only
  split
  · exact keeps_ite (S.failScheme _ _ h0) (S.overlapGone h0)
  · exact h0

/-! ## Reports -/

theorem deliver (r : Report) (h : P d) : P (d.deliver r) := by
  cases r with
  | position b => exact S.parPosition _ (S.chgPosition _ h)
  | bus y o => exact S.parBus _ (S.chgBus _ h)
  | claimReleased b => exact S.parClaimReleased _ (S.retryStep _ h)
  | recordEnded x b id a e =>
    cases x with
    | chg => exact S.chgRecordEnded _ _ _ h
    | par => exact S.parRecordEnded _ _ _ _ h
    | mgt => exact h
  | protOpenEnded b id a e => exact S.retryStep _ h
  | genTripDone b => exact S.parTrip _ h
  | releaseDue b => exact S.releaseDue _ h
  | mark u on => exact S.takeMark _ _ h
  | onBusChanged => exact S.retestAwait _ _ h
  | syncResult b x y => exact S.takeSyncResult _ _ _ h
  | meetDemand => exact S.meetDemand h
  | judgeGrant => exact S.judgeGrant h
  | examineSync => exact S.examineSync h

theorem drain (n : Nat) (h : P d) : P (Dev.drain n d) := by
  induction n generalizing d with
  | zero => exact h
  | succ n ih =>
    unfold Dev.drain
    split
    · exact h
    · exact ih (S.deliver _ (S.work _ h))

theorem flush (h : P d) : P d.flush := S.drain _ h

theorem expireOverlap (h : P d) : P d.expireOverlap := by
  unfold Dev.expireOverlap
  split
  · exact keeps_ite (S.overlapFail _ (S.flush (S.overlapOpen _ h))) h
  · exact h

end Reports
end Sys2Proof.Machine
end

