-- ==== Sys2Proof/Laws/Frame.lean ====
section
/-!
SUPPORT. Sys2Proof/Laws/Frame.lean: the frame of the blocks' dealings with one another. What they do as they answer requests and
take reports leaves the fields of `Fixed` as they were: the clock, the mode, the stored tables but for the causes, SAU, MEAS
and PROT whole, the buses, what is reported of breakers and of controllers, and MGT's queue, selection and watch list.
-/
namespace Sys2Proof.Machine

/-- What requests between blocks and the taking of reports leave as it was. -/
structure Fixed where
  clock     : Count32
  mode      : Mode
  straps    : Bool × Bool × Bool
  tab       : Tables
  sau       : Sau
  meas      : Meas
  prot      : Prot
  buses     : Vector BusRec 6
  breakers  : Fin 24 → Position × ForcedBreaker × Bool × Bool × Count32 × Bool × Bool × BusState
  gens      : Fin 6 → Engine × Bool × Bool × Count32 × Bool
  inhibit   : Bool
  periods   : Bool × Bool × Count32 × Count32
  capture   : List (Nat × CapWord) × Vector Count16 4 × Fin 4 × Option (Fin 4) × Nat × Nat × Nat × List (Nat × List Quality)
  mgt       : List Request × Option Selection × List WatchItem × Nat × Bool
  links     : Bool × Bool × Nat × Nat × Nat

/-- The fixed part of a device. -/
def Dev.fixed (d : Dev) : Fixed :=
  { clock := d.now, mode := d.mode, straps := (d.f60, d.nomf, d.mgw)
    tab := { d.tab with causes := Vector.replicate 5 255 }, sau := d.sau, meas := d.meas, prot := d.prot
    buses := d.swm.buses, breakers := fun b => (d.breaker b).report, gens := fun g => (d.gen g).report
    inhibit := d.chg.inhibit, periods := (d.par.settled, d.par.islanded, d.par.firstPeriod, d.par.periods)
    capture := (d.cap.mem, d.cap.gens, d.cap.area, d.cap.lastArmed, d.cap.row, d.cap.phase, d.cap.filled, d.cap.summaries)
    mgt := (d.mgt.queue, d.mgt.selection, d.mgt.watch, d.mgt.dropped, d.mgt.tableFailed)
    links := (d.lnk.p1.up, d.lnk.p2.up, d.lnk.fq12Drop, d.lnk.fq21Drop, d.lnk.screened) }

/-- The fixed part with the source records and the overlap record of CHG, which only reports and timers change. -/
def Dev.fixedChg (d : Dev) : Fixed × SourceRec × SourceRec × Option Overlap :=
  (d.fixed, d.chg.sourceA, d.chg.sourceB, d.chg.overlap)

theorem fixed_port (d : Dev) (p : Port) (f : PortRec → PortRec) (hf : ∀ r, (f r).up = r.up) :
    (d.modPort p f).fixed = d.fixed := by
  have h1 : (d.modPort p f).lnk.p1.up = d.lnk.p1.up := by
    cases p
    · exact hf _
    · rfl
  have h2 : (d.modPort p f).lnk.p2.up = d.lnk.p2.up := by
    cases p
    · rfl
    · exact hf _
  simp only [Dev.fixed, h1, h2]
  cases p <;> rfl

theorem fixed_breaker (d : Dev) (b : Fin 24) (f : BreakerRec → BreakerRec) (hf : ∀ r, (f r).report = r.report) :
    (d.modBreaker b f).fixed = d.fixed := by
  have h : (fun x => ((d.modBreaker b f).breaker x).report) = fun x => (d.breaker x).report := by
    funext x
    rw [Dev.modBreaker_breaker]
    split
    · exact hf _
    · rfl
  simp only [Dev.fixed, h]
  rfl

theorem fixed_gen (d : Dev) (g : Fin 6) (f : GenRec → GenRec) (hf : ∀ r, (f r).report = r.report) :
    (d.modGen g f).fixed = d.fixed := by
  have h : (fun x => ((d.modGen g f).gen x).report) = fun x => (d.gen x).report := by
    funext x
    by_cases hx : x = g
    · subst hx; rw [Dev.modGen_gen_same]; exact hf _
    · rw [Dev.modGen_gen_ne _ _ _ _ hx]
  simp only [Dev.fixed, h]
  rfl

theorem fixed_notice (d : Dev) (n : Notice) : (d.noticePut n).fixed = d.fixed := by
  unfold Dev.noticePut
  dsimp only
  split <;> rfl

theorem fixed_trigger (d : Dev) (k : TriggerKind) (n : Nat) : (d.trigger k n).fixed = d.fixed := by
  unfold Dev.trigger Cap.trigger
  split
  · split <;> rfl
  · rfl

/-- Requests between blocks keep the fixed part, the source records and the overlap record. -/
theorem fixedChg_inner (v : Fixed × SourceRec × SourceRec × Option Overlap) : Inner (fun d => d.fixedChg = v) where
  port p f hf h := by rw [← h]; simp [Dev.fixedChg, fixed_port _ p f (fun r => (hf r).1)]
  popProt _ h := h
  popCtrl _ h := h
  popSet _ h := h
  pop12 _ h := h
  pop21 _ h := h
  putProt _ _ h := h
  putCtrl _ _ h := h
  dropCmd _ h := h
  putSet _ _ h := h
  service _ _ h := h
  popNotice _ h := h
  error _ _ h := h
  notice n h := by rename_i d; rw [← h]; unfold Dev.fixedChg; rw [fixed_notice]; unfold Dev.noticePut; dsimp only; split <;> rfl
  trigger k n h := by rw [← h]; simp [Dev.fixedChg, fixed_trigger]
  work _ h := h
  ties _ h := h
  breaker b f hf _ h := by rw [← h]; simp [Dev.fixedChg, fixed_breaker _ b f hf]
  jobs _ h := h
  cause _ h := h
  gen g f hf h := by rw [← h]; simp [Dev.fixedChg, fixed_gen _ g f (fun r => (hf r).1)]
  demand _ h := h
  grant _ h := h
  sync _ h := h
  busReq _ h := h
  chg f hf h := by
    rename_i d
    rw [← h]
    obtain ⟨h1, h2, h3, h4⟩ := hf d.chg
    simp only [Dev.fixedChg, Dev.modChg, h2, h3, h4, Prod.mk.injEq, and_true]
    simp only [Dev.fixed, h1]
    rfl

/-- Requests between blocks and the taking of reports keep the fixed part. -/
theorem fixed_reports (v : Fixed) : Reports (fun d => d.fixed = v) where
  port p f hf h := by rw [← h]; exact fixed_port _ p f (fun r => (hf r).1)
  popProt _ h := h
  popCtrl _ h := h
  popSet _ h := h
  pop12 _ h := h
  pop21 _ h := h
  putProt _ _ h := h
  putCtrl _ _ h := h
  dropCmd _ h := h
  putSet _ _ h := h
  service _ _ h := h
  popNotice _ h := h
  error _ _ h := h
  notice n h := by rw [← h]; exact fixed_notice _ n
  trigger k n h := by rw [← h]; exact fixed_trigger _ k n
  work _ h := h
  ties _ h := h
  breaker b f hf _ h := by rw [← h]; exact fixed_breaker _ b f hf
  jobs _ h := h
  cause _ h := h
  gen g f hf h := by rw [← h]; exact fixed_gen _ g f (fun r => (hf r).1)
  demand _ h := h
  grant _ h := h
  sync _ h := h
  busReq _ h := h
  chg f hf h := by
    rename_i d
    rw [← h]
    simp only [Dev.fixed, Dev.modChg, (hf d.chg).1]
    rfl
  chgAny f hf h := by
    rename_i d
    rw [← h]
    simp only [Dev.fixed, Dev.modChg, hf d.chg]
    rfl

/-- The taking of reports keeps the fixed part. -/
theorem flush_fixed (d : Dev) : d.flush.fixed = d.fixed := (fixed_reports d.fixed).flush rfl

theorem respond_fixed (d : Dev) (q : Request) (r : Response) : (d.respond q r).fixed = d.fixed :=
  (fixed_reports d.fixed).respond q r rfl

theorem recordError_fixed (d : Dev) (c : ErrorCode) (n : Nat) : (d.recordError c n).fixed = d.fixed :=
  (fixed_reports d.fixed).recordError c n rfl

theorem runPort_fixed (d : Dev) (p : Port) : (d.runPort p).fixed = d.fixed := (fixed_reports d.fixed).runPort p rfl

end Sys2Proof.Machine
end

