-- ==== Sys2Proof/Laws/KeepsAll.lean ====
section
/-!
SUPPORT. Sys2Proof/Laws/KeepsAll.lean: what the operations of PROT, SAU, MEAS, LNK, CAP and MGT keep, up to the meanings of the
commands while the part runs. `Whole P` says that a property is kept by every update that a running device makes.
-/
namespace Sys2Proof.Machine

/-- A property kept by every update that a running device makes. -/
structure Whole (P : Dev → Prop) : Prop extends Reports P where
  now     : ∀ {d} x, P d → P { d with now := x }
  mode    : ∀ {d} x, P d → P { d with mode := x }
  tab     : ∀ {d} x, P d → P { d with tab := x }
  sau     : ∀ {d} x, P d → P { d with sau := x }
  meas    : ∀ {d} x, P d → P { d with meas := x }
  prot    : ∀ {d} x, P d → P { d with prot := x }
  buses   : ∀ {d} x, P d → P { d with swm := { d.swm with buses := x } }
  brkAny  : ∀ {d} b f, ((d.breaker b).protOpens → (f (d.breaker b)).protOpens) → P d → P (d.modBreaker b f)
  genAny  : ∀ {d} g (f : GenRec → GenRec), (∀ r, r.inRange → (f r).inRange) → P d → P (d.modGen g f)
  par     : ∀ {d} (f : Par → Par), (∀ p, (f p).gens = p.gens) → P d → P { d with par := f d.par }
  inhibit : ∀ {d} f, P d → P (d.modChg f)
  portAny : ∀ {d} p f, P d → P (d.modPort p f)
  put12   : ∀ {d} f, d.lnk.fq12.length < Config.forwardCapacity → P d → P { d with lnk := { d.lnk with fq12 := d.lnk.fq12 ++ [f] } }
  put21   : ∀ {d} f, d.lnk.fq21.length < Config.forwardCapacity → P d → P { d with lnk := { d.lnk with fq21 := d.lnk.fq21 ++ [f] } }
  drop12  : ∀ {d} n, P d → P { d with lnk := { d.lnk with fq12Drop := n } }
  drop21  : ∀ {d} n, P d → P { d with lnk := { d.lnk with fq21Drop := n } }
  screened : ∀ {d} n, P d → P { d with lnk := { d.lnk with screened := n } }
  select  : ∀ {d} x, P d → P (d.modMgt (fun m => { m with selection := x }))
  dropped : ∀ {d} (n : Mgt → Nat), P d → P (d.modMgt (fun m => { m with dropped := n m }))
  dequeue : ∀ {d q rest}, d.mgt.queue = q :: rest → P d → P (d.modMgt (fun m => { m with queue := rest, service := some ⟨q, .acting⟩ }))
  filter  : ∀ {d} p, P d → P (d.modMgt (fun m => { m with queue := m.queue.filter p }))
  enqueue : ∀ {d} q, d.mgt.queue.length < Config.requestCapacity → P d → P (d.modMgt (fun m => { m with queue := m.queue ++ [q] }))
  watch   : ∀ {d} w, w.length ≤ 64 → P d → P (d.modMgt (fun m => { m with watch := w }))
  clear   : ∀ {d} p, P d → P (d.modMgt (fun m => { m with errors := d.mgt.errors.filter p }))
  capSlot : ∀ {d} v, P d → P (d.captureSlot v)
  capConf : ∀ {d} x y, P d → P { d with cap := d.cap.configure x y }
  capDel  : ∀ {d} a g, P d → P { d with cap := (d.cap.delete a g).2 }
  capLock : ∀ {d} a g v, P d → P { d with cap := (d.cap.setLock a g v).2 }

theorem watchItems_length (n : Nat) (bs : List Byte) : (watchItems n bs).length = n := by
  induction n generalizing bs with
  | zero => rfl
  | succ n ih => simp [watchItems, ih]

namespace Whole
variable {P : Dev → Prop} (S : Whole P) {d : Dev}
include S

/-! ## The switchgear map -/

theorem brk (b : Fin 24) (f : BreakerRec → BreakerRec) (h : P d)
    (o : (d.breaker b).protOpens → (f (d.breaker b)).protOpens := by exact id) : P (d.modBreaker b f) := S.brkAny _ _ o h

theorem updateBreaker (b : Fin 24) (f : BreakerRec → BreakerRec) (h : P d)
    (o : (d.breaker b).protOpens → (f (d.breaker b)).protOpens := by exact id) : P (d.updateBreaker b f) :=
  keeps_ite (S.brk _ _ h o) (S.push _ (S.brk _ _ h o))

theorem forceBreaker (b : Fin 24) (o : ForcedBreaker) (h : P d) : P (d.forceBreaker b o) := S.updateBreaker _ _ h
theorem releaseBreakers (h : P d) : P d.releaseBreakers := keeps_forEach _ _ (fun _ _ h => S.forceBreaker _ _ h) h
theorem expireStatusAge (b : Fin 24) (h : P d) : P (d.expireStatusAge b) := keeps_ite (S.updateBreaker _ _ h) h
theorem writeLockout (b : Fin 24) (v : Bool) (h : P d) : P (d.writeLockout b v) := keeps_ite h (S.storeJob _ (S.tab _ h))
theorem writeBlock (y : Fin 6) (v : Bool) (h : P d) : P (d.writeBlock y v) := keeps_ite h (S.storeJob _ (S.tab _ h))

theorem lockoutReset (b : Fin 24) (h : P d) : P (d.lockoutReset b).2 := by
  unfold Dev.lockoutReset
  split
  · exact h
  · exact S.writeLockout _ _ h

theorem blockReset (y : Fin 6) (h : P d) : P (d.blockReset y).2 := by
  unfold Dev.blockReset
  split
  · exact h
  · exact S.writeBlock _ _ h

theorem setBusState (y : Fin 6) (s : BusState) (h : P d) : P (d.setBusState y s) := keeps_ite h (S.push _ (S.buses _ h))
theorem evaluateBus (y : Fin 6) (h : P d) : P (d.evaluateBus y) := S.buses _ (S.setBusState _ _ h)
theorem evaluateGenSide (b : Fin 24) (h : P d) : P (d.evaluateGenSide b) := keeps_ite (S.brk _ _ h) h

theorem evaluateBuses (h : P d) : P d.evaluateBuses :=
  keeps_forEach _ _ (fun _ _ h => S.evaluateGenSide _ h) (keeps_forEach _ _ (fun _ _ h => S.evaluateBus _ h) h)

theorem invalidateBuses (qs : List (Fin 96)) (h : P d) : P (d.invalidateBuses qs) :=
  keeps_forEach _ _ (fun _ _ h => keeps_ite (S.brk _ _ h) h)
    (keeps_forEach _ _ (fun _ _ h => keeps_ite (S.setBusState _ _ h) h) h)

theorem breakerFailure (b : Fin 24) (id : Count16) (h : P d) : P (d.breakerFailure b id) :=
  S.queueNotice _ _ _ (S.recordError _ _ (keeps_forEach _ _ (fun _ _ h => S.protOpen _ _ _ (S.writeLockout _ _ h)) h))

theorem expireOperate (b : Fin 24) (h : P d) : P (d.expireOperate b) := by
  unfold Dev.expireOperate
  split
  · exact h
  · have h0 : P ((d.endRecord b .failed).recordError .operateTimeout b.val) := S.recordError _ _ (S.endRecord _ _ h)
    exact keeps_ite (keeps_ite (S.breakerFailure _ _ h0) h0) h

theorem expireBreakerFailure (b : Fin 24) (h : P d) : P (d.expireBreakerFailure b) := by
  unfold Dev.expireBreakerFailure
  split
  · exact h
  · rename_i r hr
    exact keeps_ite (S.breakerFailure _ _ (S.brk _ _ h (fun o c e => by cases e; exact o r hr))) h

theorem takeStatus (b : Fin 24) (p : Position) (sp lo : Bool) (h : P d) : P (d.takeStatus b p sp lo) := by
  have h0 : P (d.modBreaker b (fun r => { r with reported := p, inLocal := lo, spring := sp, ageFrom := d.now, aged := false })) :=
    S.brk _ _ h
  unfold Dev.takeStatus
  dsimp only
  exact keeps_ite (keeps_ite (S.confirm _ _ (S.reportPosition _ _ (S.drawTie h0))) (S.reportPosition _ _ (S.confirm _ _ (S.drawTie h0))))
    (S.confirm _ _ (S.reportPosition _ _ h0))

/-! ## Protection -/

theorem element (e : Fin 32) (f : ElementRec → ElementRec) (h : P d) : P (d.modElement e f) := S.prot _ h

theorem markSource (e : Fin 32) (on : Bool) (h : P d) : P (d.markSource e on) := by
  unfold Dev.markSource
  split
  · exact S.push _ h
  · exact h

theorem operateRequests (e : Fin 32) (h : P d) : P (d.operateRequests e) := by
  have h1 := keeps_forEach (P := P) (d.elementCfg e).tripIds
    (fun b d' => d'.protOpen b (decide ((d.elementCfg e).bf = 1)) (.element e)) (fun _ _ h => S.protOpen _ _ _ h) h
  have h2 := keeps_ite (P := P) (c := (d.elementCfg e).lockout = 1)
    (keeps_forEach (d.elementCfg e).tripIds (fun b d => d.writeLockout b true) (fun _ _ h => S.writeLockout _ _ h) h1) h1
  exact keeps_ite (keeps_forEach _ _ (fun _ _ h => S.writeBlock _ _ h) h2) h2

theorem operateElement (e : Fin 32) (h : P d) : P (d.operateElement e) := by
  have h1 : P ((d.modElement e (fun r => { r with operated := true, opCount := sat16 r.opCount })).operateRequests e) :=
    S.operateRequests _ (S.element _ _ h)
  exact S.markSource _ _ (S.queueNotice _ _ _ (keeps_ite (S.trigger _ _ h1) h1))

theorem unoperate (e : Fin 32) (h : P d) : P (d.unoperate e) := keeps_ite (S.markSource _ _ (S.element _ _ h)) h
theorem resetElement (e : Fin 32) (h : P d) : P (d.resetElement e) := S.element _ _ (S.unoperate _ h)
theorem blockElement (e : Fin 32) (h : P d) : P (d.blockElement e) := S.element _ _ (S.unoperate _ h)

theorem evaluateElement (e : Fin 32) (h : P d) : P (d.evaluateElement e) := by
  have h0 : P (d.modElement e (fun r => d.timeElement (d.elementCfg e) r (d.assess (d.elementCfg e)))) := S.element _ _ h
  exact keeps_ite (keeps_ite (keeps_ite h0 (S.unoperate _ h0)) (keeps_ite (S.operateElement _ h0) h0)) (S.blockElement _ h)

theorem elementInstant (e : Fin 32) (h : P d) : P (d.elementInstant e) :=
  keeps_ite h (S.element _ _ (keeps_ite (S.evaluateElement _ h) (S.element _ _ h)))

theorem protInstant (h : P d) : P d.protInstant :=
  keeps_ite (S.prot _ h) (keeps_forEach _ _ (fun _ _ h => S.elementInstant _ h) (S.prot _ h))

theorem protInvalidate (qs : List (Fin 96)) (h : P d) : P (d.protInvalidate qs) :=
  keeps_ite h (keeps_forEach _ _ (fun _ _ h => keeps_ite (S.blockElement _ h) h) h)

theorem forceOperated (e : Fin 32) (h : P d) : P (d.forceOperated e) :=
  keeps_ite h (keeps_ite (S.element _ _ h) (S.operateElement _ (S.element _ _ h)))

theorem forceBlocked (e : Fin 32) (h : P d) : P (d.forceBlocked e) := keeps_ite h (S.element _ _ (S.unoperate _ h))
theorem releaseElement (e : Fin 32) (h : P d) : P (d.releaseElement e) := keeps_ite h (S.resetElement _ h)
theorem releaseElements (h : P d) : P d.releaseElements := keeps_forEach _ _ (fun _ _ h => S.releaseElement _ h) h
theorem protEnterService (h : P d) : P d.protEnterService := keeps_forEach _ _ (fun _ _ h => S.resetElement _ h) h

/-! ## Measurement and sample alignment -/

theorem measure (h : P d) : P d.measure := S.meas _ (S.meas _ h)
theorem measInvalidate (qs : List (Fin 96)) (h : P d) : P (d.measInvalidate qs) := S.meas _ (S.meas _ h)

theorem phasorInstant (h : P d) : P d.phasorInstant := by
  have h0 : P (Dev.takeBusSettings { d with sau := { d.sau with inst := d.sau.inst + 1 } }) := S.buses _ (S.sau _ h)
  exact S.flush (S.parInstant (S.flush (S.chgInstant (S.flush (S.evaluateBuses (S.flush (S.protInstant (S.measure h0))))))))

theorem invalidate (qs : List (Fin 96)) (h : P d) : P (d.invalidate qs) :=
  keeps_ite h (S.flush (S.syncInvalidate _ (S.invalidateBuses _ (S.protInvalidate _ (S.measInvalidate _ h)))))

theorem stream (i : Fin 24) (f : StreamRec → StreamRec) (h : P d) : P (d.modStream i f) := S.sau _ h
theorem idleIfEmpty (h : P d) : P d.idleIfEmpty := keeps_ite h (S.sau _ h)
theorem loseStream (i : Fin 24) (h : P d) : P (d.loseStream i) := S.queueNotice _ _ _ (S.recordError _ _ (S.stream _ _ h))
theorem lockStream (i : Fin 24) (h : P d) : P (d.lockStream i) := S.queueNotice _ _ _ (S.stream _ _ h)

theorem closeStream (i : Fin 24) (v : Bool) (h : P d) : P (d.closeStream i v) := by
  unfold Dev.closeStream
  dsimp only
  split
  · exact keeps_ite (S.lockStream _ (S.stream _ _ h)) (S.stream _ _ h)
  · exact S.stream _ _ h
  · exact S.stream _ _ h
  · exact S.stream _ _ h
  · exact keeps_ite (S.loseStream _ h) (S.stream _ _ h)
  · exact h

theorem closeStreams (x : Slot) (h : P d) : P (d.closeStreams x) := keeps_forEach _ _ (fun _ _ h => S.closeStream _ _ h) h

theorem closeSlot (r : Ring) (h : P d) : P (d.closeSlot r) := by
  unfold Dev.closeSlot
  dsimp only
  refine S.idleIfEmpty (keeps_ite (S.phasorInstant ?_) (S.invalidate _ ?_)) <;>
    exact S.sau _ (S.capSlot _ (S.meas _ (S.closeStreams _ h)))

theorem examineRing (n : Nat) (h : P d) : P (Dev.examineRing n d) := by
  induction n generalizing d with
  | zero => exact h
  | succ n ih =>
    unfold Dev.examineRing
    split
    · exact h
    · exact keeps_ite (ih (S.closeSlot _ h)) h

theorem acceptSample (i : Fin 24) (r : Ring) (a : Nat) (qs : List Quality) (vs : List Int) (h : P d) :
    P (d.acceptSample i r a qs vs) := by
  unfold Dev.acceptSample
  exact S.examineRing examineLimit (S.stream _ _ (S.sau _ h))

theorem outOfWindow (i : Fin 24) (h : P d) : P (d.outOfWindow i) := by
  have h0 : P (d.modStream i (fun r => { r with outOfWindow := 0 })) := S.stream _ _ h
  have h1 := S.loseStream i h0
  exact keeps_ite (keeps_ite h0 (S.idleIfEmpty (keeps_ite (S.invalidate _ h1) h1))) (S.stream _ _ h)

theorem takeSample (i : Fin 24) (n : Nat) (qs : List Quality) (vs : List Int) (h : P d) : P (d.takeSample i n qs vs) := by
  unfold Dev.takeSample
  dsimp only
  split
  · exact S.acceptSample _ _ _ _ _ h
  · refine keeps_ite (S.stream _ _ h) ?_
    split
    · exact S.outOfWindow _ h
    · exact keeps_ite (S.stream _ _ h) (S.acceptSample _ _ _ _ _ h)

theorem missingSample (i : Fin 24) (h : P d) : P (d.missingSample i) := S.stream _ _ h

theorem expireSilence (h : P d) : P d.expireSilence :=
  keeps_ite (S.invalidate _ (S.idleIfEmpty (S.recordError _ _ (keeps_forEach _ _ (fun _ _ h => S.loseStream _ h) h)))) h

theorem restartStream (i : Fin 24) (old : StreamEntry) (h : P d) : P (d.restartStream i old) := by
  unfold Dev.restartStream
  exact S.stream _ _ (keeps_ite (S.sau _ h) h)

/-! ## Paralleling -/

theorem judgeGen (g : Fin 6) (m w : Bool) (h : P d) : P (d.judgeGen g m w) := by
  unfold Dev.judgeGen
  dsimp only
  split
  · exact S.failGen _ _ (S.drawTie h)
  · exact S.failGen _ _ h
  · exact S.failGen _ _ h
  · split
    · exact S.judgeStarting _ h
    · exact S.judgeStopping _ h
    · exact keeps_ite (S.push _ h) h
    · exact h

theorem takeGenset (g : Fin 6) (e : Engine) (r m : Bool) (h : P d) : P (d.takeGenset g e r m) := by
  have h0 : P (d.modGen g (fun x => { x with engine := e, ready := r, manual := m, ageFrom := d.now, aged := false })) :=
    S.genAny _ _ (fun _ h => h) h
  exact keeps_ite h0 (S.judgeGen _ _ _ h0)

theorem expireControllerAge (g : Fin 6) (h : P d) : P (d.expireControllerAge g) := by
  have h0 : P (d.modGen g (fun r => { r with engine := .unknown, ready := false, aged := true })) := S.genAny _ _ (fun _ h => h) h
  exact keeps_ite (keeps_ite (S.judgeGen _ _ _ h0) h0) h

theorem correctSet (vn : Nat) (g : Fin 6) (h : P d) : P (d.correctSet vn g) := by
  have h0 : P (if d.par.sync.slipOk then d.modGen g (fun r => r.addSpeed
      (truncDiv (((d.tab.par.targetSlip : Int) - d.par.sync.slip) * d.tab.par.gs) 100)) else d) :=
    keeps_ite (S.gen _ _ (GenRec.tame_addSpeed _) h) h
  exact keeps_ite (S.gen _ _ (GenRec.tame_addVolt _) h0) h0

theorem syncCorrections (h : P d) : P d.syncCorrections := by
  unfold Dev.syncCorrections
  split
  · exact keeps_ite h (keeps_forEach _ _ (fun _ _ h => S.correctSet _ _ h) h)
  · exact h

theorem shareIslanded (h : P d) : P d.shareIslanded := by
  unfold Dev.shareIslanded
  refine keeps_forEach _ _ ?_ h
  intro g x hx
  dsimp only
  split
  · refine S.gen _ _ (fun r => ⟨rfl, fun hr => ?_⟩) hx
    refine (GenRec.tame_addVolt _ _).2 ((GenRec.tame_addSpeed _ _).2 ⟨hr.1, hr.2.1, hr.2.2.1, hr.2.2.2.1, ?_⟩)
    dsimp only
    omega
  · exact S.gen _ _ (GenRec.tame_addSpeed _) hx

theorem shareParalleled (h : P d) : P d.shareParalleled :=
  keeps_forEach _ _ (fun _ _ h => keeps_ite (S.gen _ _ (fun r => GenRec.tame_addSpeed _ r) h) h) h

theorem share (h : P d) : P d.share := by
  have h0 : P { d with par := { d.par with islanded := d.genBusIslanded } } := S.par (fun p => { p with islanded := d.genBusIslanded }) (fun _ => rfl) h
  exact keeps_ite (S.shareIslanded h0) (S.shareParalleled h0)

theorem unloadSet (g : Fin 6) (h : P d) : P (d.unloadSet g) := by
  have h0 : P (d.modGen g (fun r => { r with load := max 0 (r.load - (d.genCfg g).ramp) })) :=
    S.gen _ _ (fun r => ⟨rfl, fun hr => ⟨hr.1, hr.2.1, hr.2.2.1, hr.2.2.2.1, by dsimp only; omega⟩⟩) h
  exact keeps_ite (S.toOpening _ h) (keeps_ite (S.gen _ _ (fun r => GenRec.tame_addSpeed _ r) h0) h0)

theorem holdSet (g : Fin 6) (h : P d) : P (d.holdSet g) := S.gen _ _ (GenRec.tame_addSpeed _) h

theorem unloadSets (h : P d) : P d.unloadSets :=
  keeps_forEach _ _ (fun g x h => by
    split
    · exact S.unloadSet _ h
    · exact S.holdSet _ h
    · exact h) h

theorem sendSetpoints (h : P d) : P d.sendSetpoints :=
  keeps_forEach _ _ (fun _ _ h => keeps_ite (S.sendSetpoint _ _ _ _ h) (keeps_ite (S.sendSetpoint _ _ _ _ h) h)) h

theorem setpointPeriod (h : P d) : P d.setpointPeriod :=
  keeps_ite (S.par (fun p => { p with periods := p.periods + 1 }) (fun _ => rfl) (S.sendSetpoints (S.unloadSets (S.share (S.syncCorrections h))))) h

theorem settleGen (g : Fin 6) (h : P d) : P (d.settleGen g) := by
  unfold Dev.settleGen
  split
  · exact h
  · exact keeps_ite (keeps_ite (S.claimGen _ (S.moveGen _ _ _ (GenRec.tame_takeTargets _) h))
      (keeps_ite (S.claimGen _ (S.toCooldown _ h)) h)) h

theorem settlePar (h : P d) : P d.settlePar := by
  have h0 : P { d with par := { d.par with settled := true, firstPeriod := nextHundred d.now, periods := 0 } } :=
    S.par (fun p => { p with settled := true, firstPeriod := nextHundred d.now, periods := 0 }) (fun _ => rfl) h
  exact S.meetDemand (S.demand _ (keeps_forEach _ _ (fun _ _ h => S.settleGen _ h) h0))

/-! ## Changeover -/

theorem chgAll (f : Chg → Chg) (h : P d) : P (d.modChg f) := S.inhibit f h

theorem opChgReset (h : P d) : P d.opChgReset.2 := keeps_ite (S.chgAll _ h) h

theorem opInhibit (h : P d) : P d.opInhibit.2 := by
  unfold Dev.opInhibit
  split
  · exact h
  · dsimp only; exact S.chgAll _ h
  · dsimp only; exact S.chgAll _ h

theorem opRelease (h : P d) : P d.opRelease.2 := keeps_ite (S.chgAll _ (S.chgAll _ h)) (S.chgAll _ h)
theorem chgEnterService (h : P d) : P d.chgEnterService := keeps_ite (S.chgAll _ h) h
theorem chgLeaveService (h : P d) : P d.chgLeaveService := keeps_ite (S.chgAll _ h) h

theorem settleSource (u : Utility) (h : P d) : P (d.settleSource u) := by
  have h0 : P (d.modChg (fun c => c.modSource u (fun r => { r with judgement := d.judgement u }))) := S.modSource _ _ h
  unfold Dev.settleSource
  dsimp only
  split
  · exact S.setSource _ _ _ h0
  · exact S.setSource _ _ _ h0
  · exact h0

theorem settleCauses (h : P d) : P d.settleCauses := by
  unfold Dev.settleCauses
  split <;> first | exact S.raiseCause _ h | exact h

theorem endSettling (h : P d) : P d.endSettling :=
  keeps_ite (S.settleCauses (S.settleSource _ (S.settleSource _ (S.noteIndeterminate _ (S.noteIndeterminate _
    (S.chgAll _ (S.settlePar h))))))) h

theorem sourceWritten (u : Utility) (o : Nat) (h : P d) : P (d.sourceWritten u o) :=
  keeps_ite h (S.modSource _ _ (keeps_ite (S.modTimer _ _ h) (S.setSource _ _ _ h)))

/-! ## The link unit -/

theorem forward (p : Port) (f : EthFrame) (h : P d) : P (d.forward p f) := by
  unfold Dev.forward
  split
  · split
    · exact S.runPort _ (S.put12 _ ‹_› h)
    · exact S.drop12 _ h
  · split
    · exact S.runPort _ (S.put21 _ ‹_› h)
    · exact S.drop21 _ h

theorem immediateReply (p : Port) (f : OutFrame) (h : P d) : P (d.immediateReply p f) :=
  keeps_ite (S.dropped _ h) (S.runPort _ (S.portAny _ _ h))

theorem linkDown (p : Port) (h : P d) : P (d.linkDown p) := by
  unfold Dev.linkDown
  dsimp only
  refine keeps_ite ?_ h
  have h0 : P ((d.modPort p (fun r => { r with up := false, tx := none, slot := none })).modCounters p
      (fun c => { c with linkDown := sat32 c.linkDown })) := S.portAny _ _ (S.portAny _ _ h)
  split
  · exact S.pump _ _ (S.segmentGone _ (S.countDiscarded _ (keeps_ite (S.countDiscarded _ h0) h0)))
  · exact S.pump _ _ (keeps_ite (S.countDiscarded _ h0) h0)

theorem linkUp (p : Port) (h : P d) : P (d.linkUp p) := keeps_ite h (S.runPort _ (S.portAny _ _ h))

theorem transmissionEnd (p : Port) (h : P d) : P (d.transmissionEnd p) := by
  unfold Dev.transmissionEnd
  split
  · exact S.runPort _ (S.portAny _ _ (S.portAny _ _ h))
  · exact h

/-! ## Settings -/

theorem takeRecords (a n : Nat) (rs : List (List Int)) (h : P d) : P (d.takeRecords a n rs) := S.tab _ h

theorem streamsWritten (n : Nat) (rs : List (List Int)) (h : P d) : P (d.streamsWritten n rs) :=
  S.invalidate _ (S.idleIfEmpty (keeps_forEach _ _ (fun _ _ h => S.restartStream _ _ h) (S.takeRecords _ _ _ h)))

theorem groupsWritten (n : Nat) (rs : List (List Int)) (h : P d) : P (d.groupsWritten n rs) :=
  keeps_forEach _ _ (fun _ _ h => S.meas _ h) (S.takeRecords _ _ _ h)

theorem elementsWritten (n : Nat) (rs : List (List Int)) (h : P d) : P (d.elementsWritten n rs) :=
  S.takeRecords _ _ _ (keeps_forEach _ _ (fun _ _ h => S.element _ _ (S.resetElement _ h)) h)

theorem zonesWritten (n : Nat) (rs : List (List Int)) (h : P d) : P (d.zonesWritten n rs) :=
  keeps_forEach _ _ (fun _ _ h => keeps_ite (S.element _ _ h) h) (S.takeRecords _ _ _ h)

theorem busesWritten (n : Nat) (rs : List (List Int)) (h : P d) : P (d.busesWritten n rs) :=
  keeps_forEach _ _ (fun _ _ h => S.buses _ h) (S.takeRecords _ _ _ h)

theorem breakersWritten (n : Nat) (rs : List (List Int)) (h : P d) : P (d.breakersWritten n rs) :=
  keeps_forEach _ _ (fun _ _ h => keeps_ite (S.brk _ _ h) (S.removeCommand _ (S.updateBreaker _ _ h (by intro _ _ e; cases e)))) (S.takeRecords _ _ _ h)

theorem sourcesWritten (n : Nat) (rs : List (List Int)) (h : P d) : P (d.sourcesWritten n rs) :=
  S.reexamine (S.sourceWritten _ _ (S.sourceWritten _ _ (S.takeRecords _ _ _ h)))

theorem generatorsWritten (n : Nat) (rs : List (List Int)) (h : P d) : P (d.generatorsWritten n rs) := by
  unfold Dev.generatorsWritten
  refine keeps_forEach _ _ ?_ (S.takeRecords _ _ _ h)
  intro g x hx
  exact keeps_ite hx (S.genAny g (fun r => r.renewed x.now) (fun _ h => h) hx)

theorem captureWritten (n : Nat) (rs : List (List Int)) (h : P d) : P (d.captureWritten n rs) := S.capConf _ _ (S.takeRecords _ _ _ h)

theorem written (a n : Nat) (rs : List (List Int)) (h : P d) : P (d.written a n rs) := by
  unfold Dev.written
  split
  · exact S.streamsWritten _ _ h
  · exact S.groupsWritten _ _ h
  · exact S.elementsWritten _ _ h
  · exact S.zonesWritten _ _ h
  · exact S.breakersWritten _ _ h
  · exact S.busesWritten _ _ h
  · exact S.sourcesWritten _ _ h
  · exact S.generatorsWritten _ _ h
  · exact S.captureWritten _ _ h
  · exact S.takeRecords _ _ _ h

theorem writeTaken (q : Request) (a n : Nat) (rs : List (List Int)) (h : P d) : P (d.writeTaken q a n rs) :=
  S.respond _ _ (S.flush (S.written _ _ _ h))

theorem writeFailed (q : Request) (a : Nat) (h : P d) : P (d.writeFailed q a) := S.respond _ _ (S.recordError _ _ h)

/-! ## Management -/

theorem endSelection (n : Nat) (h : P d) : P (d.endSelection n) := keeps_ite (S.select _ h) h

theorem abort (q : Request) (h : P d) : P (d.abort q) := by
  have h0 : P (d.modMgt (fun m => { m with queue := m.queue.filter (fun x => decide (x.src ≠ q.src)) })) := S.filter _ h
  unfold Dev.abort
  dsimp only
  split
  · exact S.immediateReply _ _ (S.endSelection _ (S.portAny _ _ (S.setService _ h0)))
  · exact S.immediateReply _ _ (S.endSelection _ h0)

theorem takeRequest (q : Request) (h : P d) : P (d.takeRequest q) := by
  unfold Dev.takeRequest
  split
  · exact S.abort _ h
  · split
    · exact S.enqueue _ ‹_› h
    · exact S.immediateReply _ _ h

theorem serviceSelection (q : Request) (h : P d) : P (d.serviceSelection q) := keeps_ite h (S.endSelection _ h)

theorem enterService {row : Nat × Nat} {q : Request} {d' : Dev} (hq : d.enterService row = some (q, d')) (h : P d) : P d' := by
  unfold Dev.enterService at hq
  split at hq
  · split at hq
    · cases hq; exact S.serviceSelection _ (S.dequeue ‹_› h)
    · cases hq
  · cases hq

theorem serveRow (row : Nat × Nat) (act : Dev → Request → Response × Dev) (ha : ∀ d q, P d → P (act d q).2) (h : P d) :
    P (d.serveRow row act) := by
  unfold Dev.serveRow
  split
  · exact h
  · have h0 := S.enterService ‹_› h
    exact keeps_ite (S.respond _ _ h0) (S.respond _ _ (S.flush (ha _ _ h0)))

theorem serveWrite (h : P d) : P d.serveWrite := by
  unfold Dev.serveWrite
  split
  · exact h
  · have h0 := S.enterService ‹_› h
    exact keeps_ite (S.respond _ _ h0) (keeps_ite (S.setService _ h0) (S.respond _ _ h0))

theorem serveOperate (n : Nat) (act : Dev → Nat → Response × Dev) (ha : ∀ d x, P d → P (act d x).2) (h : P d) :
    P (d.serveOperate n act) :=
  S.serveRow _ _ (fun d q h => by
    split
    · exact ha _ _ h
    · exact h) h

omit S in
theorem actRead (q : Request) (h : P d) : P (d.actRead q).2 := by unfold Dev.actRead; dsimp only; split <;> exact h

theorem actWatchSet (q : Request) (h : P d) : P (d.actWatchSet q).2 := by
  unfold Dev.actWatchSet
  dsimp only
  split
  · exact h
  · split
    · exact h
    · split
      · exact h
      · exact S.watch _ (by rw [watchItems_length]; omega) h

theorem forceBreakerCode (b : Fin 24) (c : Nat) (h : P d) : P (d.forceBreakerCode b c) := by
  unfold Dev.forceBreakerCode
  split <;> first | exact S.forceBreaker _ _ h | exact h

theorem forceElementCode (e : Fin 32) (c : Nat) (h : P d) : P (d.forceElementCode e c) := by
  unfold Dev.forceElementCode
  split
  · exact S.releaseElement _ h
  · exact S.forceOperated _ h
  · exact S.forceBlocked _ h
  · exact h

theorem applyForce (x : ForceItem) (h : P d) : P (d.applyForce x) := by
  unfold Dev.applyForce
  split
  · refine S.flush ?_
    cases toId 24 x.2.1
    · exact h
    · exact S.forceBreakerCode _ _ h
  · refine S.flush ?_
    cases toId 32 x.2.1
    · exact h
    · exact S.forceElementCode _ _ h

theorem actForce (q : Request) (h : P d) : P (d.actForce q).2 := by
  unfold Dev.actForce
  dsimp only
  split
  · exact h
  · split
    · exact h
    · split
      · exact h
      · split
        · exact h
        · exact keeps_forEach _ _ (fun _ _ h => S.applyForce _ h) h

theorem actForceClear (q : Request) (h : P d) : P (d.actForceClear q).2 := by
  unfold Dev.actForceClear
  dsimp only
  exact S.releaseElements (S.releaseBreakers h)

theorem actSelect (q : Request) (h : P d) : P (d.actSelect q).2 := by
  unfold Dev.actSelect
  split
  · exact h
  · split
    · exact h
    · exact S.select _ h

theorem expireSelection (h : P d) : P d.expireSelection := by
  unfold Dev.expireSelection
  split
  · exact keeps_ite (S.select _ h) h
  · exact h

theorem changeMode (m : Mode) (h : P d) : P (d.changeMode m) := by
  have h1 : ∀ e, P e → P (if m = .service then e.chgEnterService.protEnterService else e) :=
    fun e h => keeps_ite (S.protEnterService (S.chgEnterService h)) h
  have h2 : ∀ e, P e → P (if d.mode = .test then e.releaseBreakers.releaseElements else e) :=
    fun e h => keeps_ite (S.releaseElements (S.releaseBreakers h)) h
  have h3 : ∀ e, P e → P (if d.mode = .service then e.chgLeaveService.push .meetDemand else e) :=
    fun e h => keeps_ite (S.push _ (S.chgLeaveService h)) h
  exact h3 _ (h2 _ (h1 _ (S.mode m h)))

theorem opMode (x : Nat) (h : P d) : P (d.opMode x).2 := by
  unfold Dev.opMode
  split
  · exact h
  · split
    · exact h
    · split
      · exact h
      · exact S.changeMode _ h

theorem opMaint (x : Nat) (v : Bool) (h : P d) : P (d.opMaint x v).2 := by
  unfold Dev.opMaint
  split
  · exact h
  · exact S.prot _ h

omit S in
theorem opRestart (x : Nat) (h : P d) : P (d.opRestart x).2 := by unfold Dev.opRestart; split <;> exact h

theorem opBreaker (x : Nat) (a : Action) (h : P d) : P (d.opBreaker x a).2 := by
  unfold Dev.opBreaker
  split
  · exact h
  · split
    · exact S.request_of ‹_› h
    · exact S.request_of ‹_› h

theorem opLockoutReset (x : Nat) (h : P d) : P (d.opLockoutReset x).2 := by
  unfold Dev.opLockoutReset
  split
  · exact h
  · exact S.lockoutReset _ h

theorem opBlockReset (x : Nat) (h : P d) : P (d.opBlockReset x).2 := by
  unfold Dev.opBlockReset
  split
  · exact h
  · exact S.blockReset _ h

theorem opRun (x : Nat) (h : P d) : P (d.opRun x).2 := by
  unfold Dev.opRun
  split
  · exact h
  · exact S.opRunScheme _ h

omit S in
theorem opChg (x : Nat) (act : Dev → Nat × Dev) (ha : ∀ d, P d → P (act d).2) (h : P d) : P (opChg d x act).2 := by
  unfold Machine.opChg
  split
  · exact h
  · exact ha _ h

theorem opGenReset (x : Nat) (h : P d) : P (d.opGenReset x).2 := by
  unfold Dev.opGenReset
  split
  · exact h
  · exact S.genReset _ h

theorem actErrors (q : Request) (h : P d) : P (d.actErrors q).2 := by
  unfold Dev.actErrors
  dsimp only
  split
  · exact h
  · exact keeps_ite (S.clear _ h) h

omit S in
theorem actCaptureRead (q : Request) (h : P d) : P (d.actCaptureRead q).2 := by
  unfold Dev.actCaptureRead; dsimp only; split <;> exact h

theorem actCaptureDelete (q : Request) (h : P d) : P (d.actCaptureDelete q).2 := S.capDel _ _ h
theorem actCaptureLock (q : Request) (v : Bool) (h : P d) : P (d.actCaptureLock q v).2 := S.capLock _ _ _ h

theorem actCaptureTrigger (q : Request) (h : P d) : P (d.actCaptureTrigger q).2 := by
  have h0 : P (d.trigger .manual q.src) := S.trigger _ _ h
  unfold Dev.actCaptureTrigger
  dsimp only
  split <;> exact h0

/-! ## Reception -/

theorem counters (p : Port) (f : PortCounters → PortCounters) (h : P d) : P (d.modCounters p f) := S.portAny _ _ h

theorem handOver (c : Consumer) (b : Body) (h : P d) : P (d.handOver c b) := by
  unfold Dev.handOver
  split
  · exact S.takeSample _ _ _ _ h
  · exact S.takeStatus _ _ _ _ h
  · exact S.takeGenset _ _ _ _ h
  · exact h

theorem missed (hd : Header) (x : Content) (h : P d) : P (d.missed hd x) := by
  unfold Dev.missed
  split
  · exact S.missingSample _ h
  · exact h

theorem consume (c : Consumer) (hd : Header) (x : Content) (f : EthFrame) (v : Bool) (h : P d) :
    P (d.consume c hd x f v) := by
  unfold Dev.consume
  split
  · exact keeps_ite (S.forward _ _ (S.flush (S.handOver _ _ h))) (S.flush (S.handOver _ _ h))
  · exact S.missed _ _ (S.counters _ _ h)

theorem addressed (p : Port) (hd : Header) (x : Content) (f : EthFrame) (h : P d) : P (d.addressed p hd x f) := by
  unfold Dev.addressed
  dsimp only
  split
  · exact S.takeRequest _ h
  · exact S.missed _ _ (S.counters _ _ h)
  · exact S.consume _ _ _ _ _ h
  · exact S.counters _ _ h

theorem screen (b : Fin 24) (x : Content) (f : EthFrame) (h : P d) : P (d.screen b x f) := by
  unfold Dev.screen
  split
  · split
    · exact S.queueNotice _ _ _ (S.screened _ h)
    · exact S.forward _ _ h
  · exact S.forward _ _ h
  · exact S.counters _ _ h

theorem classify1 (hd : Header) (x : Content) (f : EthFrame) (h : P d) : P (d.classify1 hd x f) := by
  unfold Dev.classify1
  split
  · exact S.counters _ _ h
  · split
    · exact S.addressed _ _ _ _ h
    · split
      · exact S.consume _ _ _ _ _ h
      · exact S.forward _ _ h

theorem classify2 (hd : Header) (x : Content) (f : EthFrame) (h : P d) : P (d.classify2 hd x f) := by
  unfold Dev.classify2
  split
  · exact S.counters _ _ h
  · split
    · exact S.addressed _ _ _ _ h
    · split
      · exact S.screen _ _ _ h
      · exact S.forward _ _ (S.missed _ _ h)

theorem receive (p : Port) (f : EthFrame) (h : P d) : P (d.receive p f) := by
  unfold Dev.receive
  split
  · exact h
  · split
    · exact S.counters _ _ h
    · split
      · exact S.forward _ _ (S.counters _ _ h)
      · split
        · exact S.counters _ _ h
        · unfold Dev.classifyFrame
          dsimp only
          split
          · exact S.classify1 _ _ _ (S.counters _ _ h)
          · exact S.classify2 _ _ _ (S.counters _ _ h)

end Whole
end Sys2Proof.Machine
end

