-- ==== Sys2Proof/Laws/Memory.lean ====
section
/-!
SUPPORT. Sys2Proof/Laws/Memory.lean: the laws of the capture memory: what a read gives after a write, and that a write keeps the
canonical form, in which equal memories are equal data.
-/
namespace Sys2Proof.Machine

/-- Nothing is listed below the bound of a canonical memory. -/
theorem memRead_below {lo : Nat} {m : List (Nat × CapWord)} (h : memWfFrom lo m = true) {x : Nat} (hx : x < lo) :
    memRead m x = 0 := by
  cases m with
  | nil => rfl
  | cons p rest =>
    obtain ⟨a, w⟩ := p
    simp only [memWfFrom, Bool.and_eq_true, decide_eq_true_eq] at h
    have h1 : a ≠ x := by omega
    have h2 : x < a := by omega
    simp [memRead, h1, h2]

/-- A canonical memory is canonical from any lower bound. -/
theorem memWfFrom_mono {lo lo' : Nat} (hl : lo' ≤ lo) {m : List (Nat × CapWord)} (h : memWfFrom lo m = true) :
    memWfFrom lo' m = true := by
  cases m with
  | nil => rfl
  | cons p rest =>
    obtain ⟨a, w⟩ := p
    simp only [memWfFrom, Bool.and_eq_true, decide_eq_true_eq] at h ⊢
    exact ⟨⟨by omega, h.1.2⟩, h.2⟩

/-- A write keeps the canonical form above a bound that the address respects. -/
theorem memWfFrom_memWrite {lo x : Nat} (hx : lo ≤ x) {m : List (Nat × CapWord)} (h : memWfFrom lo m = true) (v : CapWord) :
    memWfFrom lo (memWrite m x v) = true := by
  induction m generalizing lo with
  | nil =>
    unfold memWrite
    split
    · rfl
    · rename_i hv
      simp only [memWfFrom, Bool.and_eq_true, decide_eq_true_eq]
      exact ⟨⟨hx, hv⟩, trivial⟩
  | cons p rest ih =>
    obtain ⟨a, w⟩ := p
    have h' := h
    simp only [memWfFrom, Bool.and_eq_true, decide_eq_true_eq] at h'
    unfold memWrite
    split
    · rename_i hlt
      split
      · exact h
      · rename_i hv
        simp only [memWfFrom, Bool.and_eq_true, decide_eq_true_eq]
        exact ⟨⟨hx, hv⟩, ⟨by omega, h'.1.2⟩, h'.2⟩
    · split
      · rename_i _ heq
        subst heq
        split
        · exact memWfFrom_mono (by omega) h'.2
        · rename_i hv
          simp only [memWfFrom, Bool.and_eq_true, decide_eq_true_eq]
          exact ⟨⟨hx, hv⟩, h'.2⟩
      · simp only [memWfFrom, Bool.and_eq_true, decide_eq_true_eq]
        exact ⟨h'.1, ih (by omega) h'.2⟩

/-- A write keeps the canonical form. -/
theorem memWrite_wf {m : List (Nat × CapWord)} (h : Memory.wf m = true) (x : Nat) (v : CapWord) :
    Memory.wf (memWrite m x v) = true := memWfFrom_memWrite (Nat.zero_le x) h v

/-- The memory after reset is canonical. -/
theorem reset_memory_wf : Memory.wf State.reset.dev.cap.mem = true := rfl

/-- The writes of a slot keep the canonical form. -/
theorem writeChannels_wf {m : List (Nat × CapWord)} (h : Memory.wf m = true) (base n row phase : Nat) (values : Vector Sample 96)
    (k : Nat) (qs : List Nat) : Memory.wf (writeChannels m base n row phase values k qs) = true := by
  induction qs generalizing m k with
  | nil => exact h
  | cons q qs ih => exact ih (memWrite_wf h _ _) (k + 1)

end Sys2Proof.Machine
end

