-- ==== Sys2Proof/Laws/Only.lean ====
section
/-!
SUPPORT. Sys2Proof/Laws/Only.lean: what the shared operations change at most. LNK's and MGT's operations change LNK and MGT only
(`Dev.bare`); a request to SWM changes besides only breakers, the store writes in progress and the reports (`Dev.shell`), and of
the breakers only its own.
-/
namespace Sys2Proof.Machine

theorem shell_of_bare {d e : Dev} (h : d.bare = e.bare) : d.shell = e.shell := by
  have hs : ∀ d : Dev, d.shell = { d.bare with swm := { buses := d.bare.swm.buses }, work := [] } := fun _ => rfl
  rw [hs, hs e, h]

/-! ## LNK and MGT -/

theorem bare_modPort (d : Dev) (p : Port) (f : PortRec → PortRec) : (d.modPort p f).bare = d.bare := rfl
theorem bare_modMgt (d : Dev) (f : Mgt → Mgt) : (d.modMgt f).bare = d.bare := rfl
theorem bare_startOwn (d : Dev) (p : Port) (f : OutFrame) : (d.startOwn p f).bare = d.bare := rfl
theorem bare_takeSlot (d : Dev) (p : Port) (e : SlotEntry) : (d.takeSlot p e).bare = d.bare := rfl

theorem bare_takeP1 (d : Dev) : d.takeP1.bare = d.bare := by
  unfold Dev.takeP1
  split <;> rfl

theorem bare_takeP2 (d : Dev) : d.takeP2.bare = d.bare := by
  unfold Dev.takeP2
  split
  · rfl
  · split
    · split <;> rfl
    · split <;> rfl

theorem bare_arbitrate (d : Dev) (p : Port) : (d.arbitrate p).bare = d.bare := by
  unfold Dev.arbitrate
  split
  · cases p
    · exact bare_takeP1 d
    · exact bare_takeP2 d
  · rfl

theorem bare_nextSegment {d : Dev} {p : Port} {e : SlotEntry} {d' : Dev} (h : d.nextSegment p = some (e, d')) :
    d'.bare = d.bare := by
  unfold Dev.nextSegment at h
  split at h
  · cases h; rfl
  · split at h
    · split at h
      · cases h; rfl
      · cases h
    · cases h

theorem bare_pump (n : Nat) (p : Port) (d : Dev) : (Dev.pump n p d).bare = d.bare := by
  induction n generalizing d with
  | zero => rfl
  | succ n ih =>
    unfold Dev.pump
    split
    · rfl
    · split
      · rfl
      · rename_i hn
        have h1 := bare_nextSegment hn
        split
        · rw [ih, bare_arbitrate, bare_modPort, h1]
        · rw [ih]; exact h1

theorem bare_runPort (d : Dev) (p : Port) : (d.runPort p).bare = d.bare := by
  unfold Dev.runPort
  rw [bare_pump, bare_arbitrate]

theorem bare_respond (d : Dev) (q : Request) (r : Response) : (d.respond q r).bare = d.bare := bare_runPort _ _

theorem bare_enqueueCommand (d : Dev) (b : Fin 24) (v : Bool) (f : OutFrame) : (d.enqueueCommand b v f).bare = d.bare :=
  bare_runPort _ _

theorem bare_enqueueSetpoint (d : Dev) (g : Fin 6) (f : OutFrame) : (d.enqueueSetpoint g f).bare = d.bare := bare_runPort _ _

theorem bare_sendSetpoint (d : Dev) (g : Fin 6) (run : Bool) (x y : Int) : (d.sendSetpoint g run x y).bare = d.bare :=
  bare_runPort _ _

theorem bare_removeCommand (d : Dev) (b : Fin 24) : (d.removeCommand b).bare = d.bare := rfl

theorem bare_noteError (d : Dev) (c : ErrorCode) (n : Nat) : (d.noteError c n).bare = d.bare := rfl

theorem bare_queueNotice (d : Dev) (k n : Nat) (bs : List Byte) : (d.queueNotice k n bs).bare = d.bare := by
  unfold Dev.queueNotice
  split
  · rfl
  · dsimp only
    rw [bare_runPort]
    split <;> rfl

theorem bare_recordError (d : Dev) (c : ErrorCode) (n : Nat) : (d.recordError c n).bare = d.bare := by
  unfold Dev.recordError
  split
  · rfl
  · rw [bare_queueNotice]; rfl

theorem bare_forward (d : Dev) (p : Port) (f : EthFrame) : (d.forward p f).bare = d.bare := by
  cases p <;> (unfold Dev.forward; dsimp only; split) <;> first | rfl | exact bare_runPort _ _

theorem bare_immediateReply (d : Dev) (p : Port) (f : OutFrame) : (d.immediateReply p f).bare = d.bare := by
  unfold Dev.immediateReply
  split
  · rfl
  · exact bare_runPort _ _

/-! ## Requests to SWM -/

theorem shell_modBreaker (d : Dev) (b : Fin 24) (f : BreakerRec → BreakerRec) : (d.modBreaker b f).shell = d.shell := rfl
theorem shell_push (d : Dev) (r : Report) : (d.push r).shell = d.shell := rfl
theorem shell_dropClaim (d : Dev) (b : Fin 24) : (d.dropClaim b).shell = d.shell := rfl

theorem shell_claim (d : Dev) (b : Fin 24) (h : Holder) : (d.claim b h).2.shell = d.shell := by
  unfold Dev.claim
  split <;> rfl

theorem shell_releaseClaim (d : Dev) (b : Fin 24) (h : Holder) : (d.releaseClaim b h).shell = d.shell := by
  unfold Dev.releaseClaim
  split
  · split <;> rfl
  · rfl

theorem shell_startRecord (d : Dev) (b : Fin 24) (a : Action) (p arm : Bool) (q : Requester) :
    (d.startRecord b a p arm q).shell = d.shell := by
  unfold Dev.startRecord
  dsimp only
  rw [shell_of_bare (bare_enqueueCommand _ _ _ _), shell_modBreaker]

theorem shell_reportEnd (d : Dev) (b : Fin 24) (r : CmdRecord) (e : RecordEnd) : (d.reportEnd b r e).shell = d.shell := by
  unfold Dev.reportEnd
  split
  · dsimp only
    split <;> split <;> rfl
  · split
    · split <;> rfl
    · rfl
    · rfl

theorem shell_endRecord (d : Dev) (b : Fin 24) (e : RecordEnd) : (d.endRecord b e).shell = d.shell := by
  unfold Dev.endRecord
  split
  · rfl
  · dsimp only
    split
    · rw [shell_push, shell_reportEnd]; rfl
    · rw [shell_reportEnd]; rfl

theorem shell_joinRecord (d : Dev) (b : Fin 24) (r : CmdRecord) (q : OpRequest) : (d.joinRecord b r q).shell = d.shell := rfl

theorem shell_accept (d : Dev) (q : OpRequest) : (d.accept q).2.shell = d.shell := by
  unfold Dev.accept
  split
  · split
    · rfl
    · rw [shell_startRecord, shell_endRecord]
  · rw [shell_startRecord]

theorem shell_requestClaimed (d : Dev) (q : OpRequest) (h : Holder) : (d.requestClaimed q h).2.shell = d.shell := by
  unfold Dev.requestClaimed
  have hc := shell_claim d q.breaker h
  dsimp only
  split
  · rename_i d' he
    rw [he] at hc
    split
    · split
      · rw [shell_dropClaim]; exact hc
      · rfl
    · rw [shell_accept]; exact hc
  · rfl

theorem shell_request (d : Dev) (q : OpRequest) : (d.request q).2.shell = d.shell := by
  unfold Dev.request
  split
  · rfl
  · split
    · split
      · rfl
      · exact shell_requestClaimed _ _ _
    · exact shell_accept _ _

theorem shell_protOpen (d : Dev) (b : Fin 24) (arm : Bool) (q : Requester) : (d.protOpen b arm q).shell = d.shell :=
  shell_request _ _

/-! ## Other breakers -/

theorem swm_of_bare {d e : Dev} (h : d.bare = e.bare) : d.swm = e.swm := congrArg (fun x => x.swm) h

theorem breaker_of_bare {d e : Dev} (h : d.bare = e.bare) (b : Fin 24) : d.breaker b = e.breaker b := by
  unfold Dev.breaker
  rw [swm_of_bare h]

theorem other_modBreaker (d : Dev) (b x : Fin 24) (f : BreakerRec → BreakerRec) (hx : x ≠ b) :
    (d.modBreaker b f).breaker x = d.breaker x := by
  rw [Dev.modBreaker_breaker]
  simp [hx]

theorem other_claim (d : Dev) (b x : Fin 24) (h : Holder) (hx : x ≠ b) : (d.claim b h).2.breaker x = d.breaker x := by
  unfold Dev.claim
  split
  · exact other_modBreaker _ _ _ _ hx
  · rfl

theorem other_startRecord (d : Dev) (b x : Fin 24) (a : Action) (p arm : Bool) (q : Requester) (hx : x ≠ b) :
    (d.startRecord b a p arm q).breaker x = d.breaker x := by
  unfold Dev.startRecord
  dsimp only
  rw [breaker_of_bare (bare_enqueueCommand _ _ _ _), other_modBreaker _ _ _ _ hx]

theorem other_reportEnd (d : Dev) (b x : Fin 24) (r : CmdRecord) (e : RecordEnd) (hx : x ≠ b) :
    (d.reportEnd b r e).breaker x = d.breaker x := by
  unfold Dev.reportEnd
  split
  · dsimp only
    split <;> split <;> rfl
  · split
    · split
      · exact other_modBreaker _ _ _ _ hx
      · rfl
    · rfl
    · rfl

theorem other_endRecord (d : Dev) (b x : Fin 24) (e : RecordEnd) (hx : x ≠ b) :
    (d.endRecord b e).breaker x = d.breaker x := by
  unfold Dev.endRecord
  split
  · rfl
  · dsimp only
    split
    · show ((_ : Dev).push _).breaker x = _
      refine Eq.trans (b := (Dev.reportEnd _ b _ e).breaker x) rfl ?_
      rw [other_reportEnd _ _ _ _ _ hx]
      exact other_modBreaker _ _ _ _ hx
    · rw [other_reportEnd _ _ _ _ _ hx]
      exact other_modBreaker _ _ _ _ hx

theorem other_accept (d : Dev) (q : OpRequest) (x : Fin 24) (hx : x ≠ q.breaker) :
    (d.accept q).2.breaker x = d.breaker x := by
  unfold Dev.accept
  split
  · split
    · exact other_modBreaker _ _ _ _ hx
    · dsimp only
      rw [other_startRecord _ _ _ _ _ _ _ hx, other_endRecord _ _ _ _ hx]
  · exact other_startRecord _ _ _ _ _ _ _ hx

/-- A request leaves every other breaker as it was. -/
theorem other_request (d : Dev) (q : OpRequest) (x : Fin 24) (hx : x ≠ q.breaker) :
    (d.request q).2.breaker x = d.breaker x := by
  unfold Dev.request
  split
  · rfl
  · split
    · split
      · rfl
      · unfold Dev.requestClaimed
        rename_i h _ _
        have hc := other_claim d q.breaker x h hx
        dsimp only
        split
        · rename_i d' he
          rw [he] at hc
          split
          · split
            · exact (other_modBreaker _ _ _ _ hx).trans hc
            · rfl
          · exact (other_accept _ _ _ hx).trans hc
        · rfl
    · exact other_accept _ _ _ hx

theorem other_protOpen (d : Dev) (b x : Fin 24) (arm : Bool) (q : Requester) (hx : x ≠ b) :
    (d.protOpen b arm q).breaker x = d.breaker x := other_request _ _ _ hx

/-! ## A protection OPEN -/

theorem endRecord_breaker (d : Dev) (b : Fin 24) (e : RecordEnd) {r : CmdRecord} (hr : (d.breaker b).record = some r) :
    ((d.endRecord b e).breaker b).record = none ∧ ((d.endRecord b e).breaker b).outcome = e := by
  have h1 : ∀ (x : Dev), (x.breaker b).record = none ∧ (x.breaker b).outcome = e →
      ((x.reportEnd b r e).breaker b).record = none ∧ ((x.reportEnd b r e).breaker b).outcome = e := by
    intro x hx
    unfold Dev.reportEnd
    split
    · dsimp only
      split <;> split <;> exact hx
    · split
      · split
        · unfold Dev.dropClaim
          have : ∀ y : Dev, ∀ z : Report, (y.push z).breaker b = y.breaker b := fun _ _ => rfl
          rw [this, Dev.modBreaker_breaker]
          simpa using hx
        · exact hx
      · exact hx
      · exact hx
  have h2 : ∀ (x : Dev), ((x.modBreaker b (fun y => { y with record := none, outcome := e })).removeCommand b |>.breaker b).record
      = none ∧ ((x.modBreaker b (fun y => { y with record := none, outcome := e })).removeCommand b |>.breaker b).outcome = e := by
    intro x
    have : ∀ y : Dev, (y.removeCommand b).breaker b = y.breaker b := fun _ => rfl
    rw [this, Dev.modBreaker_breaker]
    simp
  unfold Dev.endRecord
  rw [hr]
  dsimp only
  split
  · exact h1 _ (h2 d)
  · exact h1 _ (h2 d)

/-- The record that `startRecord` makes stands afterwards. -/
theorem startRecord_breaker (d : Dev) (b : Fin 24) (a : Action) (p arm : Bool) (q : Requester) :
    (d.startRecord b a p arm q).breaker b
      = { d.breaker b with record := some (d.makeRecord b a p arm q), nextId := (d.breaker b).nextId + 1 } := by
  unfold Dev.startRecord
  dsimp only
  rw [breaker_of_bare (bare_enqueueCommand _ _ _ _), Dev.modBreaker_breaker]
  simp

/-- A protection OPEN of a used breaker leaves it with a protection record. -/
theorem protOpen_record (d : Dev) (b : Fin 24) (arm : Bool) (q : Requester) (hu : (d.breakerCfg b).used = true) :
    ∃ r, ((d.protOpen b arm q).breaker b).record = some r ∧ r.prot = true := by
  unfold Dev.protOpen Dev.request
  simp only [hu, Bool.not_true, Bool.false_eq_true, if_false, OpRequest.block, if_true]
  unfold Dev.accept
  dsimp only
  split
  · split
    · rename_i r0 h0 hp
      refine ⟨{ r0 with
        bfEnd := if arm ∧ r0.bfEnd = none then some (after d.now (d.breakerCfg b).bfDelay) else r0.bfEnd
        tellChg := r0.tellChg || decide (q = .block .chg) }, ?_, hp⟩
      unfold Dev.joinRecord
      rw [Dev.modBreaker_breaker]
      simp
    · refine ⟨_, by dsimp only; rw [startRecord_breaker], rfl⟩
  · refine ⟨_, by dsimp only; rw [startRecord_breaker], rfl⟩

end Sys2Proof.Machine
end

