-- ==== Sys2Proof/Laws/Ports.lean ====
section
/-!
SUPPORT. Sys2Proof/Laws/Ports.lean: what running a port's arbiter and response slot does when the port sends already, and when
nothing waits for its slot (R16 to R18).
-/
namespace Sys2Proof.Machine

/-- What the filling of a port's response slot leaves alone while the port sends. -/
def Dev.besideSlot (d : Dev) (p : Port) : Dev :=
  (d.modPort p (fun r => { r with slot := none, reply := none })).modMgt (fun m => { m with service := none })

theorem arbitrate_busy {d : Dev} {p : Port} (h : (d.lnk.port p).tx.isSome = true) : d.arbitrate p = d := by
  unfold Dev.arbitrate
  rw [if_neg]
  intro hn
  rw [hn.2] at h
  cases h

theorem nextSegment_none {d : Dev} {p : Port} (h : d.noSegment p) : d.nextSegment p = none := by
  unfold Dev.nextSegment
  rw [h.reply]
  dsimp only
  split
  · rename_i q r hs
    rw [if_neg]
    intro hn
    rw [h.response q r hs hn.1] at hn
    cases hn.2
  · rfl

theorem pump_none {d : Dev} {p : Port} (h : d.nextSegment p = none) (n : Nat) : Dev.pump n p d = d := by
  cases n with
  | zero => rfl
  | succ n =>
    unfold Dev.pump
    rw [h]
    split <;> rfl

/-- With nothing waiting for the slot, a port's run is its arbiter's choice and what that leaves for the slot. -/
theorem runPort_quiet {d : Dev} {p : Port} (h : (d.arbitrate p).noSegment p) : d.runPort p = d.arbitrate p :=
  pump_none (nextSegment_none h) pumpLimit

theorem nextSegment_beside {d : Dev} {p : Port} {e : SlotEntry} {d' : Dev} (h : d.nextSegment p = some (e, d')) :
    d'.besideSlot p = d.besideSlot p ∧ (d'.lnk.port p).tx = (d.lnk.port p).tx ∧ (d'.lnk.port p).up = (d.lnk.port p).up := by
  unfold Dev.nextSegment at h
  split at h
  · cases h; cases p <;> exact ⟨rfl, rfl, rfl⟩
  · split at h
    · split at h
      · cases h; cases p <;> exact ⟨rfl, rfl, rfl⟩
      · cases h
    · cases h

theorem pump_busy {d : Dev} {p : Port} (hu : (d.lnk.port p).up = true) (ht : (d.lnk.port p).tx.isSome = true) (n : Nat) :
    (Dev.pump n p d).besideSlot p = d.besideSlot p := by
  induction n generalizing d with
  | zero => rfl
  | succ n ih =>
    unfold Dev.pump
    split
    · rfl
    · split
      · rfl
      · rename_i e d1 hn
        obtain ⟨h1, h2, h3⟩ := nextSegment_beside hn
        rw [if_pos (h3.trans hu)]
        have ht1 : ((d1.modPort p (fun r => { r with slot := some e })).lnk.port p).tx.isSome = true := by
          cases p <;> exact (congrArg Option.isSome h2).trans ht
        have hu1 : ((d1.modPort p (fun r => { r with slot := some e })).lnk.port p).up = true := by
          cases p <;> exact h3.trans hu
        rw [arbitrate_busy ht1, ih hu1 ht1, ← h1]
        cases p <;> rfl

/-- While a port sends, running it can only fill its response slot. -/
theorem runPort_busy {d : Dev} {p : Port} (h : d.portBusy p) : (d.runPort p).besideSlot p = d.besideSlot p := by
  unfold Dev.runPort
  rw [arbitrate_busy h.tx, pump_busy h.up h.tx]

/-- What runs no port by itself leaves the other port whole. -/
theorem besideSlot_other {d e : Dev} {p : Port} (h : d.besideSlot p = e.besideSlot p) :
    d.lnk.port p.other = e.lnk.port p.other := by
  have := congrArg (fun x => x.lnk.port p.other) h
  cases p <;> exact this

theorem besideSlot_tx {d e : Dev} {p : Port} (h : d.besideSlot p = e.besideSlot p) :
    (d.lnk.port p).tx = (e.lnk.port p).tx := by
  have := congrArg (fun x => (x.lnk.port p).tx) h
  cases p <;> exact this

theorem besideSlot_queues {d e : Dev} {p : Port} (h : d.besideSlot p = e.besideSlot p) :
    d.lnk.fq12 = e.lnk.fq12 ∧ d.lnk.fq21 = e.lnk.fq21 ∧ d.lnk.protQueue = e.lnk.protQueue ∧ d.lnk.ctrlQueue = e.lnk.ctrlQueue
      ∧ d.lnk.setpoints = e.lnk.setpoints ∧ d.lnk.fq12Drop = e.lnk.fq12Drop ∧ d.lnk.fq21Drop = e.lnk.fq21Drop
      ∧ d.lnk.screened = e.lnk.screened := by
  have h1 := congrArg (fun x => x.lnk.fq12) h
  have h2 := congrArg (fun x => x.lnk.fq21) h
  have h3 := congrArg (fun x => x.lnk.protQueue) h
  have h4 := congrArg (fun x => x.lnk.ctrlQueue) h
  have h5 := congrArg (fun x => x.lnk.setpoints) h
  have h6 := congrArg (fun x => x.lnk.fq12Drop) h
  have h7 := congrArg (fun x => x.lnk.fq21Drop) h
  have h8 := congrArg (fun x => x.lnk.screened) h
  cases p <;> exact ⟨h1, h2, h3, h4, h5, h6, h7, h8⟩

end Sys2Proof.Machine
end

