-- ==== Sys2Proof/Laws/Requests.lean ====
section
/-!
SUPPORT. Sys2Proof/Laws/Requests.lean: the serving of a request that stands at the head of a free queue (R200, R201): what the
serving of a row comes to, and what the taking into service leaves alone.
-/
namespace Sys2Proof.Machine

variable {s : State} {q : Request} {rest : List Request} {row : Nat × Nat}

@[simp] theorem taking_work (d : Dev) (q : Request) (rest : List Request) : (d.taking q rest).work = d.work := by
  unfold Dev.taking Dev.serviceSelection Dev.endSelection
  split
  · rfl
  · split <;> rfl

@[simp] theorem taking_bare (d : Dev) (q : Request) (rest : List Request) : (d.taking q rest).bare = d.bare := by
  unfold Dev.taking Dev.serviceSelection Dev.endSelection
  split
  · rfl
  · split <;> rfl

@[simp] theorem taking_lnk (d : Dev) (q : Request) (rest : List Request) : (d.taking q rest).lnk = d.lnk := by
  unfold Dev.taking Dev.serviceSelection Dev.endSelection
  split
  · rfl
  · split <;> rfl

/-- The taking into service changes MGT alone. -/
theorem taking_eq (d : Dev) (q : Request) (rest : List Request) : d.taking q rest = { d with mgt := (d.taking q rest).mgt } := by
  unfold Dev.taking Dev.serviceSelection Dev.endSelection
  split
  · rfl
  · split <;> rfl

/-- The head of a free queue enters service. -/
theorem State.serves.enter (h : s.serves q rest row) : s.dev.enterService row = some (q, s.dev.taking q rest) := by
  unfold Dev.enterService
  rw [h.free, h.head]
  dsimp only
  rw [if_pos h.row]
  rfl

/-- A row that is served acts on the device with its request in service, takes what that reports, and responds. -/
theorem State.serves.serveRow (h : s.serves q rest row) (act : Dev → Request → Response × Dev) :
    s.dev.serveRow row act = ((act (s.dev.taking q rest) q).2.flush.respond q (act (s.dev.taking q rest) q).1) := by
  unfold Dev.serveRow
  rw [h.enter]
  dsimp only
  rw [if_neg (Nat.not_lt.mpr h.long)]

/-- An action that reports nothing is followed by its response at once. -/
theorem State.serves.serveRow_quiet (h : s.serves q rest row) (act : Dev → Request → Response × Dev)
    (hw : (act (s.dev.taking q rest) q).2.work = []) :
    s.dev.serveRow row act = ((act (s.dev.taking q rest) q).2.respond q (act (s.dev.taking q rest) q).1) := by
  rw [h.serveRow, Dev.flush_of_no_work _ hw]

theorem State.serves.work (h : s.serves q rest row) : (s.dev.taking q rest).work = [] := by
  rw [taking_work]
  exact h.quiet

/-- The row of a request tells its code. -/
theorem Request.row_code {q : Request} {n m : Nat} (h : q.row = (n, m)) (hn : n ≠ 0) : q.code = n := by
  unfold Request.row at h
  split at h
  · cases h; exact absurd rfl hn
  · split at h
    · split at h
      · cases h; assumption
      · cases h; exact absurd rfl hn
    · cases h; rfl

/-- The row of an OPERATE of a known target tells the target. -/
theorem Request.row_target {q : Request} {t : Nat} (h : q.row = (10, t)) : q.target = t ∧ t ≤ 12 ∧ 2 ≤ q.params.length := by
  unfold Request.row at h
  split at h
  · cases h
  · split at h
    · split at h
      · rename_i h2
        cases h
        exact ⟨rfl, h2.2, h2.1⟩
      · cases h
    · rename_i hne
      exact absurd (Prod.mk.inj h).1 hne

/-- The selection of a matching OPERATE matches. -/
theorem State.operates.matches {target object : Nat} (h : s.operates q rest target object) :
    selectionMatches s.dev.mgt.selection q = true := by
  obtain ⟨since, hs⟩ := h.selected
  have ht := (Request.row_target h.serves.row).1
  unfold selectionMatches
  rw [hs]
  simp [ht, h.names]

/-- An OPERATE with a matching selection is decided by its target's owner. -/
theorem State.operates.serve {target object : Nat} (h : s.operates q rest target object) (act : Dev → Nat → Response × Dev) :
    s.dev.serveOperate target act
      = ((act (s.dev.taking q rest) object).2.flush.respond q (act (s.dev.taking q rest) object).1) := by
  unfold Dev.serveOperate
  dsimp only
  rw [h.serves.serveRow, if_pos h.matches, h.names]

theorem State.operates.serve_quiet {target object : Nat} (h : s.operates q rest target object) (act : Dev → Nat → Response × Dev)
    (hw : (act (s.dev.taking q rest) object).2.work = []) :
    s.dev.serveOperate target act
      = ((act (s.dev.taking q rest) object).2.respond q (act (s.dev.taking q rest) object).1) := by
  rw [h.serve, Dev.flush_of_no_work _ hw]

theorem State.whenRunning_eq {s : State} (h : s.power = .running) (f : Dev → Dev) :
    s.whenRunning f = .next (s.withDev (f s.dev)) := by
  unfold State.whenRunning
  rw [if_pos h]
  rfl

end Sys2Proof.Machine
end

