-- ==== Sys2Proof/Laws/Sound.lean ====
section
/-!
SUPPORT. Sys2Proof/Laws/Sound.lean: every update of a running device keeps it sound (Safety.lean), and a device in reset, or just
out of one, is sound.
-/
namespace Sys2Proof.Machine

/-! ## The capture unit -/
theorem sound_writeSlot {c : Cap} (h : c.sound) (qs : List Nat) (v : Vector Sample 96) : (c.writeSlot qs v).sound := by
  have hm := writeChannels_wf h.memory (c.area.val * Config.areaWords) qs.length c.row c.phase v 0 qs
  unfold Cap.writeSlot
  dsimp only
  split
  · exact ⟨hm, h.areas, h.armed, h.recording⟩
  · exact ⟨hm, h.areas, h.armed, h.recording⟩

theorem filter_nodup_map {rs : List CapRecord} (h : (rs.map CapRecord.area).Nodup) (p : CapRecord → Bool) :
    ((rs.filter p).map CapRecord.area).Nodup :=
  h.sublist (List.filter_sublist.map _)

theorem chooseArea_sound {c : Cap} (hm : Memory.wf c.mem) (ha : (c.records.map CapRecord.area).Nodup)
    (hr : c.records.filter CapRecord.recording = []) (order : List (Fin 4)) (o : Bool) (k : Option (Fin 4)) {a : Fin 4} {c' : Cap}
    (hc : c.chooseArea order o k = some (a, c')) : (c'.arm a).sound := by
  unfold Cap.chooseArea at hc
  split at hc
  · cases hc
    have := List.find?_some ‹_›
    exact ⟨hm, ha, fun _ => this, by simpa [Cap.arm, bit] using hr⟩
  · split at hc
    · split at hc
      · cases hc
        refine ⟨hm, filter_nodup_map ha _, fun _ => ?_, ?_⟩
        · simp [Cap.arm, Cap.free]
        · simp only [Cap.arm]
          simp [bit]
          simp [List.filter_eq_nil_iff] at hr
          intro x hx hxr; rw [hr x hx] at hxr; cases hxr
      · cases hc
    · cases hc

theorem armNext_sound {c : Cap} (hm : Memory.wf c.mem) (ha : (c.records.map CapRecord.area).Nodup)
    (hr : c.records.filter CapRecord.recording = []) (order : List (Fin 4)) (o : Bool) (k : Option (Fin 4)) :
    (c.armNext order o k).sound := by
  unfold Cap.armNext
  split
  · exact chooseArea_sound hm ha hr order o k ‹_›
  · exact ⟨hm, ha, by simp, by simp [hr, bit]⟩

theorem no_recording {c : Cap} (h : c.sound) (hs : c.state ≠ .post) : c.records.filter CapRecord.recording = [] := by
  have := h.recording
  simp only [hs, decide_false, bit] at this
  exact List.length_eq_zero_iff.mp this

theorem filter_one {rs : List CapRecord} (h : (rs.filter CapRecord.recording).length = 1) {r : CapRecord}
    (hr : rs.find? CapRecord.recording = some r) : ∀ x ∈ rs, x.recording → x = r := by
  intro x hx hxr
  have hx' : x ∈ rs.filter CapRecord.recording := by simp [hx, hxr]
  have hr' : r ∈ rs.filter CapRecord.recording := by
    have := List.find?_some hr
    have := List.mem_of_find?_eq_some hr
    simp_all
  match hl : rs.filter CapRecord.recording, h with
  | [y], _ => rw [hl] at hx' hr'; simp at hx' hr'; rw [hx', hr']

theorem complete_sound {c : Cap} (h : c.sound) (hs : c.state = .post) {r : CapRecord} (hr : c.current = some r) (cfg : CaptureEntry) :
    (c.complete cfg r).sound := by
  have h1 : (c.records.filter CapRecord.recording).length = 1 := by simpa [hs, bit] using h.recording
  have hone := filter_one h1 hr
  have hareas : ∀ s : CapRecord, s.area = r.area → (c.records.map (fun x => if x.recording then s else x)).map CapRecord.area = c.records.map CapRecord.area := by
    intro s hs
    rw [List.map_map]
    apply List.map_congr_left
    intro x hx
    simp only [Function.comp]
    split
    · rw [hone x hx ‹_›]; exact hs
    · rfl
  have hrec : ∀ s : CapRecord, s.recording = false → (c.records.map (fun x => if x.recording then s else x)).filter CapRecord.recording = [] := by
    intro s hs
    simp only [List.filter_eq_nil_iff, List.mem_map]
    rintro x ⟨y, hy, rfl⟩
    split
    · simp [hs]
    · assumption
  unfold Cap.complete
  dsimp only
  have a1 := hareas { r with recording := false, worst := c.worstOf r } rfl
  have a2 := hrec { r with recording := false, worst := c.worstOf r } rfl
  split
  · refine ⟨h.memory, ?_, by simp, ?_⟩
    · dsimp only; rw [a1]; exact h.areas
    · dsimp only; rw [a2]; rfl
  · apply armNext_sound
    · exact h.memory
    · dsimp only; rw [a1]; exact h.areas
    · dsimp only; rw [a2]

theorem takeSlot_sound {c : Cap} (h : c.sound) (cfg : CaptureEntry) (v : Vector Sample 96) : (c.takeSlot cfg v).sound := by
  unfold Cap.takeSlot
  split
  · exact sound_writeSlot h _ _
  · rename_i r hs hr
    have h1 := sound_writeSlot h r.channels v
    dsimp only
    split
    · refine complete_sound h1 ?_ ?_ cfg
      · unfold Cap.writeSlot; dsimp only; split <;> exact hs
      · unfold Cap.writeSlot; dsimp only; split <;> exact hr
    · exact h1
  · exact h

theorem inj_of_nodup_map {rs : List CapRecord} (h : (rs.map CapRecord.area).Nodup) {x y : CapRecord} (hx : x ∈ rs) (hy : y ∈ rs)
    (he : x.area = y.area) : x = y := by
  induction rs with
  | nil => cases hx
  | cons r rs ih =>
    simp only [List.map_cons, List.nodup_cons] at h
    rcases List.mem_cons.mp hx with h1 | h1 <;> rcases List.mem_cons.mp hy with h2 | h2
    · rw [h1, h2]
    · subst h1; exact absurd (he ▸ List.mem_map_of_mem h2) h.1
    · subst h2; exact absurd (he ▸ List.mem_map_of_mem h1) h.1
    · exact ih h.2 h1 h2

theorem arm_sound {c : Cap} (hm : Memory.wf c.mem) (ha : (c.records.map CapRecord.area).Nodup)
    (hr : c.records.filter CapRecord.recording = []) (a : Fin 4) (hf : c.free a) : (c.arm a).sound :=
  ⟨hm, ha, fun _ => hf, by simp [Cap.arm, hr, bit]⟩

theorem configure_sound {c : Cap} (h : c.sound) (x y : CaptureEntry) : (c.configure x y).sound := by
  unfold Cap.configure
  split
  · rename_i hs
    split
    · exact armNext_sound h.memory h.areas (no_recording h (by simp [hs])) _ _ _
    · exact h
  · rename_i hs
    have hr := no_recording h (by simp [hs])
    split
    · exact h
    · split
      · exact ⟨h.memory, h.areas, by simp, by simp [hr, bit]⟩
      · exact arm_sound h.memory h.areas hr _ (h.armed hs)
  · exact h
  · rename_i hs
    have hr := no_recording h (by simp [hs])
    split
    · exact ⟨h.memory, h.areas, by simp, by simp [hr, bit]⟩
    · exact h

theorem delete_sound {c : Cap} (h : c.sound) (a g : Nat) : (c.delete a g).2.sound := by
  unfold Cap.delete
  split
  · exact h
  · rename_i r hf
    split
    · exact h
    · rename_i hrec
      split
      · exact h
      · dsimp only
        have hmem := List.mem_of_find?_eq_some hf
        have hfree : ∀ c' : Cap, c'.records = c.records.filter (fun x => decide (x.area ≠ r.area)) → c'.free r.area = true := by
          intro c' hc; simp [Cap.free, hc]
        split
        · rename_i hs
          have hs' : c.state = .stalled := hs
          have hr := no_recording h (by simp [hs'])
          apply arm_sound
          · exact h.memory
          · exact filter_nodup_map h.areas _
          rotate_left
          · exact hfree _ rfl
          simp only [List.filter_eq_nil_iff] at hr ⊢
          exact fun x hx => hr x (List.mem_filter.mp hx).1
        · refine ⟨h.memory, filter_nodup_map h.areas _, ?_, ?_⟩
          · intro hs
            have := h.armed hs
            simp only [Cap.free, Bool.not_eq_true', List.any_eq_false, decide_eq_true_eq] at this ⊢
            exact fun x hx => this x (List.mem_filter.mp hx).1
          · dsimp only
            rw [← h.recording, List.filter_filter]
            congr 1
            apply List.filter_congr
            intro x hx
            by_cases hx' : x.recording
            · simp only [hx', Bool.true_and, decide_eq_true_eq]
              intro he
              apply hrec
              have : x = r := by
                have hn := h.areas
                exact inj_of_nodup_map hn hx hmem he
              rw [← this]; exact hx'
            · simp [hx']

theorem setLock_sound {c : Cap} (h : c.sound) (a g : Nat) (v : Bool) : (c.setLock a g v).2.sound := by
  unfold Cap.setLock
  split
  · exact h
  · rename_i r _
    have ha : (c.records.map (fun x => if x.area = r.area then { x with locked := v } else x)).map CapRecord.area = c.records.map CapRecord.area := by
      rw [List.map_map]
      apply List.map_congr_left
      intro x _
      simp only [Function.comp]
      split <;> rfl
    have hr : ((c.records.map (fun x => if x.area = r.area then { x with locked := v } else x)).filter CapRecord.recording).length = (c.records.filter CapRecord.recording).length := by
      rw [List.filter_map, List.length_map]
      congr 1
      apply List.filter_congr
      intro x _
      simp only [Function.comp]
      split <;> rfl
    refine ⟨h.memory, ?_, ?_, ?_⟩
    · dsimp only; rw [ha]; exact h.areas
    · intro hs
      have := h.armed hs
      simp only [Cap.free, Bool.not_eq_true', List.any_eq_false, decide_eq_true_eq] at this ⊢
      intro x hx
      obtain ⟨y, hy, rfl⟩ := List.mem_map.mp hx
      have := this y hy
      split <;> exact this
    · dsimp only; rw [hr]; exact h.recording

theorem trigger_sound {c : Cap} (h : c.sound) (cfg : CaptureEntry) (k : TriggerKind) (n : Nat) (i m : Count32) : (c.trigger cfg k n i m).sound := by
  unfold Cap.trigger
  split
  · split
    · rename_i hs
      have hr := no_recording h (by simp [hs])
      unfold Cap.startRecord
      refine ⟨h.memory, ?_, by simp, ?_⟩
      · dsimp only
        rw [List.map_append, List.nodup_append]
        have := h.armed hs
        simp only [Cap.free, Bool.not_eq_true', List.any_eq_false, decide_eq_true_eq] at this
        refine ⟨h.areas, by simp, ?_⟩
        intro a ha b hb
        simp at hb; subst hb
        obtain ⟨x, hx, rfl⟩ := List.mem_map.mp ha
        exact this x hx
      · dsimp only
        rw [List.filter_append, hr]
        simp [bit]
    · rename_i hs
      have ha : (c.records.map (fun r => if r.recording then r.retrigger c.row c.phase k n i m else r)).map CapRecord.area = c.records.map CapRecord.area := by
        rw [List.map_map]
        apply List.map_congr_left
        intro x _
        simp only [Function.comp]
        split <;> rfl
      have hr : ((c.records.map (fun r => if r.recording then r.retrigger c.row c.phase k n i m else r)).filter CapRecord.recording).length = (c.records.filter CapRecord.recording).length := by
        rw [List.filter_map, List.length_map]
        congr 1
        apply List.filter_congr
        intro x _
        simp only [Function.comp]
        split
        · rename_i h; simp [CapRecord.retrigger, h]
        · rfl
      refine ⟨h.memory, ?_, by simp [hs], ?_⟩
      · dsimp only; rw [ha]; exact h.areas
      · dsimp only; rw [hr]; exact h.recording
    · exact ⟨h.memory, h.areas, h.armed, h.recording⟩
  · exact ⟨h.memory, h.areas, h.armed, h.recording⟩


/-! ## Queues with keys -/
theorem map_fst_putKey {κ α : Type} [DecidableEq κ] (k : κ) (x : α) (q : List (κ × α)) :
    (putKey k x q).map Prod.fst = if k ∈ q.map Prod.fst then q.map Prod.fst else q.map Prod.fst ++ [k] := by
  unfold putKey
  have : (q.any (fun y => decide (y.1 = k)) = true) ↔ k ∈ q.map Prod.fst := by
    simp [List.any_eq_true]
  by_cases h : k ∈ q.map Prod.fst
  · rw [if_pos (this.mpr h), if_pos h, List.map_map]
    apply List.map_congr_left
    intro y _
    simp only [Function.comp]
    split
    · rename_i h; exact h.symm
    · rfl
  · rw [if_neg (fun e => h (this.mp e)), if_neg h]; simp

theorem map_fst_dropKey {κ α : Type} [DecidableEq κ] (k : κ) (q : List (κ × α)) :
    (dropKey k q).map Prod.fst = (q.map Prod.fst).filter (fun x => decide (x ≠ k)) := by
  unfold dropKey
  rw [List.filter_map]; rfl

theorem nodup_put {κ : Type} [DecidableEq κ] (k : κ) (xs ys : List κ) (h : (xs ++ ys).Nodup) :
    ((if k ∈ xs then xs else xs ++ [k]) ++ ys.filter (fun x => decide (x ≠ k))).Nodup := by
  rw [List.nodup_append] at h ⊢
  obtain ⟨h1, h2, h3⟩ := h
  refine ⟨?_, h2.filter _, ?_⟩
  · split
    · exact h1
    · rw [List.nodup_append]
      refine ⟨h1, by simp, ?_⟩
      intro a ha b hb e
      simp at hb; subst hb; subst e; contradiction
  · intro a ha b hb e
    subst e
    rw [List.mem_filter] at hb
    simp at hb
    split at ha
    · exact h3 a ha a hb.1 rfl
    · simp at ha
      rcases ha with ha | ha
      · exact h3 a ha a hb.1 rfl
      · exact hb.2 ha

theorem nodup_swap {κ : Type} {xs ys : List κ} (h : (xs ++ ys).Nodup) : (ys ++ xs).Nodup := by
  rw [List.nodup_append] at h ⊢
  exact ⟨h.2.1, h.1, fun a ha b hb e => h.2.2 b hb a ha e.symm⟩

/-! ## The error list -/
theorem evict_sublist (es : List ErrorEntry) : (evictError es).Sublist es := by
  unfold evictError
  split
  · exact List.eraseIdx_sublist _ _
  · exact List.drop_sublist _ _

theorem evict_length (es : List ErrorEntry) : (evictError es).length = es.length - 1 := by
  unfold evictError
  split
  · rename_i i h
    have := List.findIdx?_eq_some_iff_findIdx_eq.mp h
    rw [List.length_eraseIdx, if_pos this.1]
  · simp

theorem addError_sound {es : List ErrorEntry} (hl : es.length ≤ 16) (hk : (es.map (fun e => (e.code, e.subject))).Nodup) (c : ErrorCode) (n : Nat) (t : Count32) :
    (addError es c n t).length ≤ 16 ∧ ((addError es c n t).map (fun e => (e.code, e.subject))).Nodup := by
  unfold addError
  split
  · refine ⟨by simpa using hl, ?_⟩
    rw [List.map_map]
    have : (fun e : ErrorEntry => (e.code, e.subject)) ∘ (fun e => if e.code = c ∧ e.subject = n then { e with lastMs := t, count := sat16 e.count } else e) = fun e => (e.code, e.subject) := by
      funext e; simp only [Function.comp]; split <;> rfl
    rw [this]; exact hk
  · rename_i hn
    have hn' : (c, n) ∉ es.map (fun e => (e.code, e.subject)) := by
      intro h
      apply hn
      obtain ⟨e, he, hh⟩ := List.mem_map.mp h
      unfold errorListed
      rw [List.any_eq_true]
      refine ⟨e, he, ?_⟩
      simp at hh; simp [hh.1, hh.2]
    have hsub : (if es.length < Config.errorCapacity then es else evictError es).Sublist es := by
      split
      · exact List.Sublist.refl _
      · exact evict_sublist _
    constructor
    · rw [List.length_append, List.length_singleton]
      by_cases hc : es.length < Config.errorCapacity
      · rw [if_pos hc]; simp only [Config.errorCapacity] at hc; omega
      · rw [if_neg hc, evict_length]; omega
    · rw [List.map_append, List.nodup_append]
      refine ⟨hk.sublist (hsub.map _), by simp, ?_⟩
      intro a ha b hb e
      simp at hb; subst hb; subst e
      exact hn' ((hsub.map _).subset ha)

theorem noteError_sound {d : Dev} (h : d.sound) (c n) : (d.noteError c n).sound := by
  have := addError_sound (by simpa [Config.errorCapacity] using h.mgt.errors) h.mgt.keys c n d.now
  exact ⟨h.lnk, ⟨h.mgt.queue, h.mgt.watch, this.1, this.2, h.mgt.notices⟩, h.cap, h.gens, h.swm⟩

theorem port_sound {l : Lnk} (h : l.sound) (p : Port) (f : PortRec → PortRec) : (l.modPort p f).sound := by
  cases p <;> exact ⟨h.fq12, h.fq21, h.commands, h.setpoints⟩

theorem gens_mod {d : Dev} (h : ∀ g, (d.gen g).inRange) (g : Fin 6) (f : GenRec → GenRec) (hf : ∀ r, r.inRange → (f r).inRange) :
    ∀ x, ((d.modGen g f).gen x).inRange := by
  intro x
  by_cases hx : x = g
  · subst hx; rw [Dev.modGen_gen_same]; exact hf _ (h x)
  · rw [Dev.modGen_gen_ne _ _ _ _ hx]; exact h x

theorem breakers_mod {d : Dev} (h : ∀ b, (d.breaker b).protOpens) (b : Fin 24) (f : BreakerRec → BreakerRec)
    (hf : (d.breaker b).protOpens → (f (d.breaker b)).protOpens) : ∀ x, ((d.modBreaker b f).breaker x).protOpens := by
  intro x
  by_cases hx : x = b
  · subst hx; rw [Dev.modBreaker_breaker_same]; exact hf (h x)
  · rw [Dev.modBreaker_breaker_ne _ _ _ _ hx]; exact h x

theorem sound_whole : Whole Dev.sound where
  port p f _ h := ⟨port_sound h.lnk p f, h.mgt, h.cap, h.gens, h.swm⟩
  popProt e h := ⟨⟨h.lnk.fq12, h.lnk.fq21, by have := h.lnk.commands; rw [e] at this; exact (List.nodup_cons.mp this).2, h.lnk.setpoints⟩, h.mgt, h.cap, h.gens, h.swm⟩
  popCtrl e h := ⟨⟨h.lnk.fq12, h.lnk.fq21, by
    have := h.lnk.commands; rw [e] at this
    exact this.sublist ((List.Sublist.append (List.Sublist.refl _) (List.sublist_cons_self _ _)).map _), h.lnk.setpoints⟩, h.mgt, h.cap, h.gens, h.swm⟩
  popSet e h := ⟨⟨h.lnk.fq12, h.lnk.fq21, h.lnk.commands, by have := h.lnk.setpoints; rw [e] at this; exact (List.nodup_cons.mp this).2⟩, h.mgt, h.cap, h.gens, h.swm⟩
  pop12 e h := ⟨⟨by have := h.lnk.fq12; rw [e] at this; simp at this ⊢; omega, h.lnk.fq21, h.lnk.commands, h.lnk.setpoints⟩, h.mgt, h.cap, h.gens, h.swm⟩
  pop21 e h := ⟨⟨h.lnk.fq12, by have := h.lnk.fq21; rw [e] at this; simp at this ⊢; omega, h.lnk.commands, h.lnk.setpoints⟩, h.mgt, h.cap, h.gens, h.swm⟩
  putProt b x h := ⟨⟨h.lnk.fq12, h.lnk.fq21, by
    have := h.lnk.commands
    rw [List.map_append] at this ⊢
    rw [map_fst_putKey, map_fst_dropKey]
    exact nodup_put b _ _ this, h.lnk.setpoints⟩, h.mgt, h.cap, h.gens, h.swm⟩
  putCtrl b x h := ⟨⟨h.lnk.fq12, h.lnk.fq21, by
    have := h.lnk.commands
    rw [List.map_append] at this ⊢
    rw [map_fst_putKey, map_fst_dropKey]
    exact nodup_swap (nodup_put b _ _ (nodup_swap this)), h.lnk.setpoints⟩, h.mgt, h.cap, h.gens, h.swm⟩
  dropCmd b h := ⟨⟨h.lnk.fq12, h.lnk.fq21, by
    have := h.lnk.commands
    rw [List.map_append] at this ⊢
    rw [map_fst_dropKey, map_fst_dropKey, ← List.filter_append]
    exact this.filter _, h.lnk.setpoints⟩, h.mgt, h.cap, h.gens, h.swm⟩
  putSet g x h := ⟨⟨h.lnk.fq12, h.lnk.fq21, h.lnk.commands, by
    rw [map_fst_putKey]
    have := nodup_put g _ [] (by simpa using h.lnk.setpoints)
    simpa using this⟩, h.mgt, h.cap, h.gens, h.swm⟩
  service x y h := ⟨h.lnk, ⟨h.mgt.queue, h.mgt.watch, h.mgt.errors, h.mgt.keys, h.mgt.notices⟩, h.cap, h.gens, h.swm⟩
  popNotice e h := ⟨h.lnk, ⟨h.mgt.queue, h.mgt.watch, h.mgt.errors, h.mgt.keys, by have := h.mgt.notices; rw [e] at this; simp at this ⊢; omega⟩, h.cap, h.gens, h.swm⟩
  error c n h := noteError_sound h c n
  notice n h := by
    rename_i d
    unfold Dev.noticePut
    dsimp only
    split
    · rename_i hc
      have h1 : (d.modMgt (fun m => { m with notices := m.notices.drop 1 })).sound :=
        ⟨h.lnk, ⟨h.mgt.queue, h.mgt.watch, h.mgt.errors, h.mgt.keys, by have := h.mgt.notices; simp [Dev.modMgt]; omega⟩, h.cap, h.gens, h.swm⟩
      have h2 := noteError_sound h1 .noticeOverflow noSubject
      refine ⟨h2.lnk, ⟨h2.mgt.queue, h2.mgt.watch, h2.mgt.errors, h2.mgt.keys, ?_⟩, h2.cap, h2.gens, h2.swm⟩
      have := h.mgt.notices
      simp [Dev.noteError, Dev.modMgt, Config.noticeCapacity] at *
      omega
    · rename_i hc
      refine ⟨h.lnk, ⟨h.mgt.queue, h.mgt.watch, h.mgt.errors, h.mgt.keys, ?_⟩, h.cap, h.gens, h.swm⟩
      simp [Dev.modMgt] at *
      omega
  trigger k n h := ⟨h.lnk, h.mgt, trigger_sound h.cap _ _ _ _ _, h.gens, h.swm⟩
  work w h := ⟨h.lnk, h.mgt, h.cap, h.gens, h.swm⟩
  ties n h := ⟨h.lnk, h.mgt, h.cap, h.gens, h.swm⟩
  breaker b f _ o h := ⟨h.lnk, h.mgt, h.cap, h.gens, breakers_mod h.swm b f o⟩
  jobs j h := ⟨h.lnk, h.mgt, h.cap, h.gens, h.swm⟩
  cause t h := ⟨h.lnk, h.mgt, h.cap, h.gens, h.swm⟩
  gen g f hf h := ⟨h.lnk, h.mgt, h.cap, gens_mod h.gens g f (fun r hr => (hf r).2 hr), h.swm⟩
  demand n h := ⟨h.lnk, h.mgt, h.cap, h.gens, h.swm⟩
  grant n h := ⟨h.lnk, h.mgt, h.cap, h.gens, h.swm⟩
  sync n h := ⟨h.lnk, h.mgt, h.cap, h.gens, h.swm⟩
  busReq n h := ⟨h.lnk, h.mgt, h.cap, h.gens, h.swm⟩
  chg f _ h := ⟨h.lnk, h.mgt, h.cap, h.gens, h.swm⟩
  chgAny f _ h := ⟨h.lnk, h.mgt, h.cap, h.gens, h.swm⟩
  now x h := ⟨h.lnk, h.mgt, h.cap, h.gens, h.swm⟩
  mode x h := ⟨h.lnk, h.mgt, h.cap, h.gens, h.swm⟩
  tab x h := ⟨h.lnk, h.mgt, h.cap, h.gens, h.swm⟩
  sau x h := ⟨h.lnk, h.mgt, h.cap, h.gens, h.swm⟩
  meas x h := ⟨h.lnk, h.mgt, h.cap, h.gens, h.swm⟩
  prot x h := ⟨h.lnk, h.mgt, h.cap, h.gens, h.swm⟩
  buses x h := ⟨h.lnk, h.mgt, h.cap, h.gens, h.swm⟩
  brkAny b f o h := ⟨h.lnk, h.mgt, h.cap, h.gens, breakers_mod h.swm b f o⟩
  genAny g f hf h := ⟨h.lnk, h.mgt, h.cap, gens_mod h.gens g f hf, h.swm⟩
  par f hf h := by
    rename_i d
    refine ⟨h.lnk, h.mgt, h.cap, ?_, h.swm⟩
    intro g
    show (tget (f d.par).gens g).inRange
    rw [hf]; exact h.gens g
  inhibit f h := ⟨h.lnk, h.mgt, h.cap, h.gens, h.swm⟩
  portAny p f h := ⟨port_sound h.lnk p f, h.mgt, h.cap, h.gens, h.swm⟩
  put12 f e h := ⟨⟨by simp [Config.forwardCapacity] at *; omega, h.lnk.fq21, h.lnk.commands, h.lnk.setpoints⟩, h.mgt, h.cap, h.gens, h.swm⟩
  put21 f e h := ⟨⟨h.lnk.fq12, by simp [Config.forwardCapacity] at *; omega, h.lnk.commands, h.lnk.setpoints⟩, h.mgt, h.cap, h.gens, h.swm⟩
  drop12 n h := ⟨⟨h.lnk.fq12, h.lnk.fq21, h.lnk.commands, h.lnk.setpoints⟩, h.mgt, h.cap, h.gens, h.swm⟩
  drop21 n h := ⟨⟨h.lnk.fq12, h.lnk.fq21, h.lnk.commands, h.lnk.setpoints⟩, h.mgt, h.cap, h.gens, h.swm⟩
  screened n h := ⟨⟨h.lnk.fq12, h.lnk.fq21, h.lnk.commands, h.lnk.setpoints⟩, h.mgt, h.cap, h.gens, h.swm⟩
  select x h := ⟨h.lnk, ⟨h.mgt.queue, h.mgt.watch, h.mgt.errors, h.mgt.keys, h.mgt.notices⟩, h.cap, h.gens, h.swm⟩
  dropped x h := ⟨h.lnk, ⟨h.mgt.queue, h.mgt.watch, h.mgt.errors, h.mgt.keys, h.mgt.notices⟩, h.cap, h.gens, h.swm⟩
  dequeue e h := ⟨h.lnk, ⟨by have := h.mgt.queue; rw [e] at this; simp [Dev.modMgt] at *; omega, h.mgt.watch, h.mgt.errors, h.mgt.keys, h.mgt.notices⟩, h.cap, h.gens, h.swm⟩
  filter p h := ⟨h.lnk, ⟨Nat.le_trans (List.length_filter_le _ _) h.mgt.queue, h.mgt.watch, h.mgt.errors, h.mgt.keys, h.mgt.notices⟩, h.cap, h.gens, h.swm⟩
  enqueue q e h := ⟨h.lnk, ⟨by simp [Dev.modMgt] at *; omega, h.mgt.watch, h.mgt.errors, h.mgt.keys, h.mgt.notices⟩, h.cap, h.gens, h.swm⟩
  watch w hw h := ⟨h.lnk, ⟨h.mgt.queue, hw, h.mgt.errors, h.mgt.keys, h.mgt.notices⟩, h.cap, h.gens, h.swm⟩
  clear p h := ⟨h.lnk, ⟨h.mgt.queue, h.mgt.watch, Nat.le_trans (List.length_filter_le _ _) h.mgt.errors, h.mgt.keys.sublist (List.filter_sublist.map _), h.mgt.notices⟩, h.cap, h.gens, h.swm⟩
  capSlot v h := ⟨h.lnk, h.mgt, takeSlot_sound h.cap _ _, h.gens, h.swm⟩
  capConf x y h := ⟨h.lnk, h.mgt, configure_sound h.cap x y, h.gens, h.swm⟩
  capDel a g h := ⟨h.lnk, h.mgt, delete_sound h.cap a g, h.gens, h.swm⟩
  capLock a g v h := ⟨h.lnk, h.mgt, setLock_sound h.cap a g v, h.gens, h.swm⟩



theorem boot_sound (old : Dev) (t : Tables) (a b c e : Bool) : (old.boot t a b c e).sound := by
  refine Sys2Proof.Machine.forEach_keeps _ _ _ _ (fun x d h => sound_whole.recordError _ _ h) ?_
  refine ⟨⟨by simp [Dev.booted], by simp [Dev.booted], by simp [Dev.booted], by simp [Dev.booted]⟩,
    ⟨by simp [Dev.booted], by simp [Dev.booted], by simp [Dev.booted], by simp [Dev.booted], by simp [Dev.booted]⟩, ?_, ?_, ?_⟩
  · simp only [Dev.booted, capAtReset]
    split
    · exact ⟨rfl, by simp, by simp, rfl⟩
    · exact ⟨rfl, by simp [Cap.arm], fun _ => rfl, rfl⟩
  · intro g
    simp [Dev.gen, Dev.booted, GenRec.inRange]
  · intro b c e
    simp [Dev.breaker, Dev.booted, swmAtReset, tget] at e

theorem blank_sound (d : Dev) : d.blank.sound := by
  refine ⟨⟨by simp [Dev.blank], by simp [Dev.blank], by simp [Dev.blank], by simp [Dev.blank]⟩,
    ⟨by simp [Dev.blank], by simp [Dev.blank], by simp [Dev.blank], by simp [Dev.blank], by simp [Dev.blank]⟩, ⟨rfl, by simp [Dev.blank], by simp [Dev.blank], rfl⟩, ?_, ?_⟩
  · intro g
    simp [Dev.gen, Dev.blank, GenRec.inRange]
  · intro b c e
    simp [Dev.breaker, Dev.blank] at e

end Sys2Proof.Machine
end

