-- ==== Sys2Proof/Laws/Zones.lean ====
section
/-!
SUPPORT. Sys2Proof/Laws/Zones.lean: when a differential zone passes the checks of R78, and that one which fails them is blocked (R90).
-/
namespace Sys2Proof.Machine

/-- What a zone member's checks say. -/
theorem Tables.memberOk_iff (t : Tables) (m : ZoneMember) : t.memberOk m = true ↔
    (m.breaker ≤ 23 ∨ m.breaker = 255) ∧ (m.polarity ≤ 1 ∧ m.switched ≤ 1) ∧ (m.switched = 1 → m.breaker ≠ 255) ∧
      ((toId 24 m.group).bind (fun g => (tget t.groups g).currents)).isSome = true := by
  unfold Tables.memberOk within
  cases toId 24 m.group <;> simp
  all_goals tauto

/-- The members that a zone uses. -/
theorem ZoneEntry.mem_used (z : ZoneEntry) (m : ZoneMember) :
    m ∈ z.members.toList.take z.count ↔ ∃ i : Fin 10, i.val < z.count ∧ tget z.members i = m := by
  rw [List.mem_take_iff_getElem]
  constructor
  · rintro ⟨i, h, rfl⟩
    have h' : i < z.count ∧ i < 10 := by simpa using h
    exact ⟨⟨i, h'.2⟩, h'.1, by simp [tget]⟩
  · rintro ⟨i, h, rfl⟩
    exact ⟨i.val, by simp; omega, by simp [tget]⟩

/-- No group is named twice exactly where two used members of one group are one member. -/
theorem ZoneEntry.nodup_groups (z : ZoneEntry) :
    ((z.members.toList.take z.count).map ZoneMember.group).Nodup ↔
      ∀ i j : Fin 10, i.val < z.count → j.val < z.count → (tget z.members i).group = (tget z.members j).group → i = j := by
  rw [List.nodup_iff_injective_getElem]
  constructor
  · intro h i j hi hj e
    have := @h ⟨i.val, by simp; omega⟩ ⟨j.val, by simp; omega⟩ (by simpa [tget] using e)
    exact Fin.ext (by simpa using this)
  · intro h i j e
    have hi : i.val < z.count ∧ i.val < 10 := by simpa using i.isLt
    have hj : j.val < z.count ∧ j.val < 10 := by simpa using j.isLt
    have := h ⟨i.val, hi.2⟩ ⟨j.val, hj.2⟩ hi.1 hj.1 (by simpa [tget] using e)
    exact Fin.ext (by simpa using this)

/-- A zone passes the checks of R78 exactly where it keeps to that rule. -/
theorem Dev.zoneEntryOk_iff (d : Dev) (z : ZoneEntry) : d.tab.zoneEntryOk z = true ↔ d.zoneKeeps z := by
  simp only [Tables.zoneEntryOk, within, distinct, Bool.and_eq_true, decide_eq_true_eq, List.all_eq_true, ZoneEntry.mem_used,
    forall_exists_index, and_imp, forall_apply_eq_imp_iff₂, ZoneEntry.nodup_groups, Tables.memberOk_iff]
  exact ⟨fun ⟨⟨c, m⟩, g⟩ => ⟨c.2, fun i h => (m i h).1, fun i h => (m i h).2.1, fun i h => (m i h).2.2.1, fun i h => (m i h).2.2.2, g⟩,
    fun k => ⟨⟨⟨Nat.zero_le _, k.count⟩, fun i h => ⟨k.breaker i h, k.flags i h, k.switched i h, k.currents i h⟩⟩, k.groups⟩⟩
/-- A zone that fails the checks of R78 is blocked (R90). -/
theorem Dev.zoneBlocked_of_failing {d : Dev} {z : ZoneEntry} (h : ¬ d.zoneKeeps z) : d.zoneBlocked z = true := by
  have e : d.tab.zoneEntryOk z = false := Bool.eq_false_iff.2 (fun k => h ((d.zoneEntryOk_iff z).1 k))
  simp [Dev.zoneBlocked, e]

end Sys2Proof.Machine
end

