-- ==== Sys2Proof/WellFormed.lean ====
section
/-!
DEFINITION. Sys2Proof/WellFormed.lean: which commands the environment can send. The operands are typed (`Fin`, `Bool`,
`Port`), so the one thing left to check is the size of an Ethernet frame's payload: no frame of the manual carries more than
the 10-byte header and the 1490-byte body of the longest MGMT-REQ (R5). DESIGN CHOICE (notes/assumptions/3.md).
-/
namespace Sys2Proof

/-- The longest payload of a frame: a header of 10 bytes (R4) and a body of 1490 (R5). -/
def maxPayload : Nat := 1500

/-- A frame is well formed as an operand when its payload fits an Ethernet frame. -/
def EthFrame.wellFormed (f : EthFrame) : Bool := decide (f.payload.length ≤ maxPayload)

/-- A command is well formed when the frame it carries, if any, is. -/
def Instr.wellFormed : Instr → Bool
  | .frameReception _ f _ => f.wellFormed
  | .bypassFrame _ f => f.wellFormed
  | _ => true

end Sys2Proof
end

