-- ==== Sys2Proof/Tests/Slice0.lean ====
section
/-!
SUPPORT. Sys2Proof/Tests/Slice0.lean: the smoke test of the well-formedness check, worked examples of spec/, and for each statement
of Certificates/Slice0/Obligations.lean that has hypotheses a theorem test_hyps_<its name> with states and operands that meet
them, clause by clause.
-/
open Sys2Proof Sys2Proof.Machine

namespace Sys2Proof.Tests

/-! ## Helpers -/

/-- A Bayline frame (R4, R5), its sequence value 0 and its flags clear. -/
def frameOf (dest src kind : Nat) (body : List Byte) : EthFrame :=
  { checkOk := true, dst := 0, src := 0, etherType := 0x88B5
    payload := beBytes 2 dest ++ beBytes 2 src ++ beBytes 1 kind ++ [0, 0, 0] ++ beBytes 2 body.length ++ body }

/-- A frame of another Ethernet type. -/
def plainFrame : EthFrame := { checkOk := true, dst := 0, src := 0, etherType := 0x0800, payload := [1, 2, 3] }

/-- A frame that the part has built. -/
def ownFrame : OutFrame := { dest := 1, src := 0x0100, kind := 3, test := false, segLast := false, body := [0, 0, 0, 3, 0] }

/-- A request from the originator 7 on P2. -/
def req (code : Nat) (params : List Byte) : Request := { port := .p2, src := 7, code := code, tag := 1, params := params }

/-- An OPERATE of a target on an object. -/
def opReq (target object : Nat) : Request := req 10 [BitVec.ofNat 8 target, BitVec.ofNat 8 object]

/-- A device with a request at the head of its queue. -/
def asking (d : Dev) (q : Request) : State := { dev := { d with mgt := { d.mgt with queue := [q] } } }

/-- A device with an OPERATE at the head of its queue, and the selection that matches it. -/
def operating (d : Dev) (target object : Nat) : State :=
  { dev := { d with mgt := { d.mgt with
      queue := [opReq target object]
      selection := some { owner := 7, target := target, object := object, since := 0 } } } }

theorem asking_serves {d : Dev} {q : Request} {row : Nat × Nat} (free : d.mgt.service = none) (quiet : d.work = [])
    (r : q.row = row) (l : fixedLength q.code ≤ q.params.length) : (asking d q).serves q [] row :=
  ⟨rfl, free, rfl, r, l, quiet⟩

theorem operating_operates {d : Dev} {target object : Nat} (free : d.mgt.service = none) (quiet : d.work = [])
    (r : (opReq target object).row = (10, target)) (o : (opReq target object).object = object) :
    (operating d target object).operates (opReq target object) [] target object :=
  ⟨⟨rfl, free, rfl, r, Nat.le_refl 2, quiet⟩, o, 0, rfl⟩

/-- Breaker 0 is a tie between buses 0 and 1 with the feeder 1 as its backup, stream 0 feeds quantity 0, and set 0 has a
controller. -/
def tables : Tables :=
  { breakers := tset (tset (Vector.replicate 24 {}) 0 { addr := 0x201, kind := 1, side1 := 0, side2 := 1, timeout := 100, bfDelay := 50,
                                                        backupCount := 1, backup := #v[1, 255, 255, 255] })
      1 { addr := 0x202, kind := 4, side1 := 0, timeout := 100, bfDelay := 50 }
    streams := tset (Vector.replicate 24 {}) 0 { enable := 1, source := 0x301, count := 1 }
    gens := tset (Vector.replicate 6 {}) 0 { addr := 0x401, breaker := 3, group := 2, rating := 500, rank := 1 } }

/-- A device with these tables and both ports idle. -/
def dev0 : Dev := { tab := tables }

/-- A port that sends. -/
def sending : PortRec := { tx := some plainFrame }

/-- The device with both ports sending. -/
def devBusy : Dev := { dev0 with lnk := { p1 := sending, p2 := sending } }

/-- A device whose breaker 0 has a status. -/
def devBreaker (r : BreakerRec) : Dev := { devBusy with swm := { breakers := tset (Vector.replicate 24 {}) 0 r } }

/-- A device whose set 0 has a record. -/
def devGen (r : GenRec) : Dev := { devBusy with par := { settled := true, gens := tset (Vector.replicate 6 {}) 0 r } }

/-! ## Well-formedness and words -/

theorem test_wellformed_accepts : (Instr.frameReception .p1 plainFrame false).wellFormed = true := by decide

/-- A payload of 1501 bytes is refused. -/
theorem test_wellformed_refuses_long_frame :
    (Instr.frameReception .p1 { plainFrame with payload := List.replicate 1501 0 } false).wellFormed = false := by decide +kernel

theorem test_wellformed_refuses_long_bypass :
    (Instr.bypassFrame .p2 { plainFrame with payload := List.replicate 1501 0 }).wellFormed = false := by decide +kernel

/-- No row of the table gives bits, so no word spells a command. -/
theorem test_no_word_spells_a_command : decodeTableWord 16 0 = none := by decide

/-! ## The machine -/

theorem test_hyps_TickOnEmptyQueue :
    (∃ s : State, s.pending = [] ∧ s.power ≠ .running) ∧
    (∃ s : State, s.pending = [] ∧ s.power = .running ∧ s.dev.due ≠ []) ∧
    (∃ s : State, s.pending = [] ∧ s.power = .running ∧ s.dev.due = []) :=
  ⟨⟨{ power := .inReset }, by decide⟩, ⟨State.reset, by decide⟩, ⟨{ dev := { chg := { state := .idle } } }, by decide⟩⟩

theorem test_hyps_StoreChangesOnlyAtWriteEnds :
    writeEnd (.linkDown .p1) = none ∧ (∀ ok, Instr.linkDown .p1 ≠ .stateStoreComplete ok) ∧
      ∃ t, exec (.linkDown .p1) State.reset = .next t := ⟨rfl, fun _ => nofun, _, rfl⟩

/-- Without a record no protection record is other than an OPEN. -/
theorem noRecord_protOpens {d : Dev} (h : ∀ b, (d.breaker b).record = none) (b : Fin 24) : (d.breaker b).protOpens :=
  fun _ e => absurd ((h b).symm.trans e) nofun

/-- A frame and a request wait, an error is listed, and CAP is armed with a word in its memory. -/
def soundDev : Dev :=
  { lnk := { fq12 := [plainFrame], ctrlQueue := [(0, ownFrame)] }
    mgt := { queue := [req 1 []], errors := [{ code := .storeFault, subject := 9, firstMs := 0, lastMs := 0, count := 1 }] }
    cap := { Cap.arm {} 0 with mem := [(0, 5)] } }

theorem test_hyps_SoundnessKeptByStep :
    (∃ s t : State, s.dev.sound ∧ step s = .next t) ∧ (∃ s t : State, s.power ≠ .running ∧ s.blankWhileJoined ∧ step s = .next t) :=
  ⟨⟨{ pending := [.linkDown .p1], dev := soundDev }, _,
      ⟨⟨by decide, by decide, by decide, by decide⟩, ⟨by decide, by decide, by decide, by decide, by decide⟩,
        ⟨by decide, by decide, by unfold Cap.free; decide, by decide⟩, by unfold GenRec.inRange; decide,
        noRecord_protOpens (by decide)⟩, rfl⟩,
    ⟨{ pending := [.powerUp], power := .inReset }, _, by decide, fun _ => rfl, rfl⟩⟩

/-! ## Reset and bypass -/

theorem test_hyps_ResetLosesVolatileState :
    (∃ s : State, s.power ≠ .noSupply ∧ s.power = .running ∧ s.dev.mgt.restartDue = true) ∧
    (∃ s : State, s.power = .noSupply ∧ s.dev.mgt.restartDue = false) :=
  ⟨⟨{ dev := { mgt := { restartDue := true } } }, by decide⟩, ⟨{ power := .noSupply }, by decide⟩⟩

theorem test_hyps_CleanResetTakesStoredTables : ∃ s : State, s.power = .inReset ∧ s.nv.failedAreas = [] :=
  ⟨{ power := .inReset }, by decide +kernel⟩

theorem test_hyps_FailingTableBootsInService : ∃ s : State, s.power = .inReset ∧ s.nv.failedAreas ≠ [] :=
  ⟨{ power := .inReset, nv := { device := { station := 0 } } }, by decide +kernel⟩

/-- A reset on a store never written gives the device of State.reset. -/
theorem test_reset_of_unwritten_store : Dev.boot {} {} false false true true = State.reset.dev := by decide +kernel

theorem test_hyps_BypassCarriesFramesUnchanged : (∃ s : State, s.power ≠ .running) ∧ ∃ s : State, s.power = .running :=
  ⟨⟨{ power := .noSupply }, by decide⟩, ⟨{}, rfl⟩⟩

/-! ## The link -/

/-- A Bayline frame of the part's own source, its payload exactly a header. -/
def ownSourceFrame : EthFrame := frameOf 0x201 0x0100 3 []

theorem test_hyps_DiscardedFramesOnlyCount :
    (∃ s : State, s.power = .running ∧ (s.dev.lnk.port .p1).up = false) ∧
    (∃ (s : State) (f : EthFrame), s.power = .running ∧ (s.dev.lnk.port .p1).up = true ∧ f.checkOk = false) ∧
    (∃ (s : State) (f : EthFrame), s.power = .running ∧ (s.dev.lnk.port .p2).up = true ∧ f.checkOk = true ∧
      f.etherType = 0x88B5 ∧ f.payload.length = 9) ∧
    (∃ (s : State) (f : EthFrame), s.power = .running ∧ (s.dev.lnk.port .p2).up = true ∧ f.checkOk = true ∧
      f.etherType = 0x88B5 ∧ f.payload.length = 10 ∧ field f.payload 2 2 = s.dev.tab.device.station) :=
  ⟨⟨{ dev := { lnk := { p1 := { up := false } } } }, by decide⟩, ⟨{}, { plainFrame with checkOk := false }, by decide⟩,
    ⟨{}, { plainFrame with etherType := 0x88B5, payload := List.replicate 9 0 }, by decide⟩, ⟨{}, ownSourceFrame, by decide⟩⟩

theorem plainFrame_passes {d : Dev} {p : Port} (h : (d.lnk.port p).up = true) : d.passes p plainFrame :=
  ⟨h, rfl, fun h => absurd h (by decide)⟩

/-- A SETPOINT frame from a controller passes on. -/
theorem test_hyps_passes_bayline : dev0.passes .p1 (frameOf 0x500 0x401 5 [0, 0, 0, 0, 0]) :=
  ⟨rfl, rfl, fun _ => ⟨by decide, by decide, by decide, fun _ => by decide, fun h => (nomatch h), fun h => nomatch h⟩⟩

theorem idle_p1 : dev0.portIdle .p1 := ⟨⟨rfl, nofun⟩, rfl, rfl, rfl, fun _ => ⟨rfl, rfl, rfl, rfl⟩, nofun⟩
theorem idle_p2 : dev0.portIdle .p2 := ⟨⟨rfl, nofun⟩, rfl, rfl, rfl, nofun, fun _ => ⟨.inl rfl, rfl⟩⟩
theorem busy_p1 : devBusy.portBusy .p1 := ⟨rfl, rfl⟩

/-- The device with both ports sending and `n` frames in each forward queue. -/
def devQueued (n : Nat) : Dev :=
  { devBusy with lnk := { devBusy.lnk with fq12 := List.replicate n plainFrame, fq21 := List.replicate n plainFrame } }

theorem test_hyps_ForwardedFrames :
    (∃ s : State, s.power = .running ∧ s.dev.passes .p1 plainFrame ∧ s.dev.portIdle .p2) ∧
    (∃ s : State, s.power = .running ∧ s.dev.passes .p2 plainFrame ∧ s.dev.portIdle .p1) ∧
    (∃ s : State, s.power = .running ∧ s.dev.passes .p1 plainFrame ∧ s.dev.portBusy .p2 ∧ s.dev.lnk.fq12.length = 31) ∧
    (∃ s : State, s.power = .running ∧ s.dev.passes .p1 plainFrame ∧ s.dev.portBusy .p2 ∧ s.dev.lnk.fq12.length = 32) ∧
    (∃ s : State, s.power = .running ∧ s.dev.passes .p2 plainFrame ∧ s.dev.portBusy .p1 ∧ s.dev.lnk.fq21.length = 31) ∧
    (∃ s : State, s.power = .running ∧ s.dev.passes .p2 plainFrame ∧ s.dev.portBusy .p1 ∧ s.dev.lnk.fq21.length = 32) :=
  ⟨⟨{ dev := dev0 }, rfl, plainFrame_passes rfl, idle_p2⟩, ⟨{ dev := dev0 }, rfl, plainFrame_passes rfl, idle_p1⟩,
    ⟨{ dev := devQueued 31 }, rfl, plainFrame_passes rfl, ⟨rfl, rfl⟩, rfl⟩,
    ⟨{ dev := devQueued 32 }, rfl, plainFrame_passes rfl, ⟨rfl, rfl⟩, rfl⟩,
    ⟨{ dev := devQueued 31 }, rfl, plainFrame_passes rfl, ⟨rfl, rfl⟩, rfl⟩,
    ⟨{ dev := devQueued 32 }, rfl, plainFrame_passes rfl, ⟨rfl, rfl⟩, rfl⟩⟩

/-- The far port's link is DOWN. -/
theorem test_hyps_ForwardedFrames_down :
    (∃ s : State, s.power = .running ∧ s.dev.passes .p1 plainFrame ∧ (s.dev.lnk.port .p2).up = false ∧ s.dev.lnk.fq12.length = 0) ∧
    (∃ s : State, s.power = .running ∧ s.dev.passes .p2 plainFrame ∧ (s.dev.lnk.port .p1).up = false ∧ s.dev.lnk.fq21.length = 0) :=
  ⟨⟨{ dev := { lnk := { p2 := { up := false } } } }, rfl, plainFrame_passes rfl, rfl, rfl⟩,
    ⟨{ dev := { lnk := { p1 := { up := false } } } }, rfl, plainFrame_passes rfl, rfl, rfl⟩⟩

/-- A SAMPLE frame of stream 0 with a count of 4000, which is out of range at 50 Hz (R5): to another part, and to this one. -/
theorem test_hyps_MalformedSampleOnlyCounts :
    let s : State := { dev := dev0 }
    let frame := fun (dest : Nat) => frameOf dest 0x301 1 (beBytes 2 4000 ++ [1, 0, 0, 0, 0, 7]);
    (∀ dest ∈ [0x500, 0x100],
      let f := frame dest;
      s.power = .running ∧ s.dev.lnk.p1.up = true ∧ s.dev.lnk.p2.up = true ∧ f.checkOk = true ∧ f.etherType = 0x88B5 ∧
        10 ≤ f.payload.length ∧ field f.payload 4 1 = 1 ∧ field f.payload 2 2 ≠ s.dev.tab.device.station ∧
        s.dev.tab.streamAt (field f.payload 2 2) = some 0 ∧
        content (Config.modulus s.dev.f60) (parseHeader f.payload) f.payload = .malformed) ∧
    field (frame 0x500).payload 0 2 ≠ s.dev.tab.device.station ∧ field (frame 0x100).payload 0 2 = s.dev.tab.device.station ∧
    s.dev.portIdle .p1 := ⟨by decide, by decide, by decide, idle_p1⟩

/-- A station COMMAND frame to breaker 0. -/
def stationFrame (a : Action) : EthFrame := frameOf 0x201 0x600 3 [0, 9, BitVec.ofNat 8 a.code, 4, 0]

/-- Breaker 0 with each reason of R13 against a CLOSE as the lowest, and, for 0, with none; `n` frames wait in FQ21 and in the
notice queue. -/
def devScreen (k n : Nat) : Dev :=
  { devBusy with
    lnk := { devBusy.lnk with fq21 := List.replicate n plainFrame }
    tab := { tables with
      device := { notice := 0x700 }
      breakers := if k = 2 ∨ k = 1 then tmod tables.breakers 0 (fun e => { e with lockout := 1 })
                  else if k = 4 then tmod tables.breakers 0 (fun e => { e with permCount := 1, perms := #v[{ cond := 1, id := 1 }, {}, {}, {}] })
                  else tables.breakers }
    mgt := { notices := List.replicate n { kind := 1, subject := 0, ms := 0, inst := 0, detail := [0, 0, 0, 0] } }
    swm := { breakers := tset (Vector.replicate 24 {}) 0
               { reported := if k = 3 then .unknown else .openPos, claim := if k = 1 then some .chg else none }
             buses := (Vector.replicate 6 { state := if k = 5 then .live else .dead }) } }

/-- 31 and 32 frames wait in FQ21, and 31 notices. -/
theorem test_hyps_StationCommandsScreened :
    (∀ a : Action, ∀ k ≤ 5, ∀ n ∈ [31, 32],
      let f := stationFrame a;
      let d := devScreen k n;
      d.lnk.p2.up = true ∧ f.checkOk = true ∧ f.etherType = 0x88B5 ∧ 10 ≤ f.payload.length ∧
        field f.payload 4 1 = 3 ∧ field f.payload 2 2 ≠ d.tab.device.station ∧
        field f.payload 0 2 ≠ d.tab.device.station ∧ d.tab.breakerAt (field f.payload 0 2) = some 0 ∧
        d.lnk.p1.up = true ∧ d.lnk.p1.tx.isSome = true ∧ d.lnk.p2.tx.isSome = true ∧ d.lnk.fq21.length = n ∧
        d.mgt.notices.length = n ∧ d.tab.device.notice ≠ 0 ∧
        content (Config.modulus d.f60) (parseHeader f.payload) f.payload = .body (.command 9 a)) ∧
    dev0.tab.device.notice = 0 :=
  ⟨fun a => by cases a <;> decide +kernel, rfl⟩

/-- Each reason is the lowest that stands, and none does. -/
theorem test_hyps_StationCommandsScreened_reasons :
    (∀ k, 1 ≤ k → k ≤ 5 → (devScreen k 31).screenedFor 0 k ∧ ∀ j, j < k → ¬ (devScreen k 31).screenedFor 0 j) ∧
    ∀ j, ¬ (devScreen 0 31).screenedFor 0 j := by
  refine ⟨fun k h1 h5 => ⟨?_, fun j h => ?_⟩, fun j => ?_⟩
  · have : k = 1 ∨ k = 2 ∨ k = 3 ∨ k = 4 ∨ k = 5 := by omega
    rcases this with rfl | rfl | rfl | rfl | rfl <;> simp only [Dev.screenedFor, Dev.termStands] <;> decide
  · have hk : k = 1 ∨ k = 2 ∨ k = 3 ∨ k = 4 ∨ k = 5 := by omega
    have hj : j = 0 ∨ j = 1 ∨ j = 2 ∨ j = 3 ∨ j = 4 := by omega
    rcases hk with rfl | rfl | rfl | rfl | rfl <;> rcases hj with rfl | rfl | rfl | rfl | rfl <;>
      first
        | omega
        | exact id
        | (simp only [Dev.screenedFor, Dev.termStands]; decide)
  · match j with
    | 0 => exact id
    | 1 | 2 | 3 | 4 | 5 => simp only [Dev.screenedFor, Dev.termStands]; decide
    | _ + 6 => exact id

/-- A response segment in a slot. -/
def slotEntry : SlotEntry := { frame := ownFrame, endsService := false, restart := false }

/-- A device with what waits for its ports. -/
def devWaiting (l : Lnk) : State := { dev := { dev0 with lnk := { l with p1 := { l.p1 with tx := some plainFrame },
                                                                         p2 := { l.p2 with tx := some plainFrame } } } }

/-- Each clause of P1: what is at the head and what the queues before it hold. -/
theorem test_hyps_EndOfTransmission_p1 :
    (∀ l ∈ [({ protQueue := [(0, ownFrame)], fq21 := [plainFrame] } : Lnk), { ctrlQueue := [(0, ownFrame)] },
        { setpoints := [(0, ownFrame)] }, { p1 := { slot := some slotEntry } }, { fq21 := [plainFrame] }, {}],
      let s := devWaiting l;
      s.power = .running ∧ s.dev.lnk.p1.up = true ∧ s.dev.lnk.p1.tx = some plainFrame ∧
        s.dev.lnk.protQueue = l.protQueue ∧ s.dev.lnk.ctrlQueue = l.ctrlQueue ∧ s.dev.lnk.setpoints = l.setpoints ∧
        s.dev.lnk.p1.slot = l.p1.slot ∧ s.dev.lnk.fq21 = l.fq21) ∧
    (devWaiting {}).dev.noSegment .p1 := ⟨by decide, rfl, nofun⟩

/-- Each clause of P2: a segment, a notice with the notice address not 0, a frame to forward with the notice address 0, and
nothing. -/
theorem test_hyps_EndOfTransmission_p2 :
    (let s := devWaiting { p2 := { slot := some slotEntry } };
      s.power = .running ∧ s.dev.lnk.p2.up = true ∧ s.dev.lnk.p2.tx = some plainFrame ∧ s.dev.lnk.p2.slot = some slotEntry) ∧
    (let s : State := { dev := { tab := { device := { notice := 0x700 } }, lnk := { p2 := sending },
                                 mgt := { notices := [{ kind := 1, subject := 0, ms := 0, inst := 0, detail := [0, 0, 0, 0] }] } } };
      s.power = .running ∧ s.dev.lnk.p2.up = true ∧ s.dev.lnk.p2.tx = some plainFrame ∧ s.dev.lnk.p2.slot = none ∧
        s.dev.tab.device.notice ≠ 0 ∧ s.dev.mgt.notices ≠ []) ∧
    (let s := devWaiting { fq12 := [plainFrame] };
      s.power = .running ∧ s.dev.lnk.p2.up = true ∧ s.dev.lnk.p2.tx = some plainFrame ∧ s.dev.lnk.p2.slot = none ∧
        s.dev.tab.device.notice = 0 ∧ s.dev.lnk.fq12 = [plainFrame]) ∧
    (let s := devWaiting {};
      s.power = .running ∧ s.dev.lnk.p2.up = true ∧ s.dev.lnk.p2.tx = some plainFrame ∧ s.dev.lnk.p2.slot = none ∧
        s.dev.tab.device.notice = 0 ∧ s.dev.lnk.fq12 = []) ∧
    (devWaiting {}).dev.noSegment .p2 := ⟨by decide, by decide, by decide, by decide, rfl, nofun⟩

/-- A link UP with nothing, with a frame, with a segment and with both to lose. -/
theorem test_hyps_LinkDownAndUp :
    (∀ r ∈ [({} : PortRec), { tx := some plainFrame }, { slot := some slotEntry }, { tx := some plainFrame, slot := some slotEntry }],
      let s : State := { dev := { dev0 with lnk := { p1 := r } } };
      s.power = .running ∧ (s.dev.lnk.port .p1).up = true ∧ (s.dev.lnk.port .p1).tx = r.tx ∧ (s.dev.lnk.port .p1).slot = r.slot) ∧
    (∀ r : PortRec, r.reply = none → ({ dev0 with lnk := { p1 := r } } : Dev).noSegment .p1) :=
  ⟨by decide, fun _ h => ⟨h, nofun⟩⟩

/-- Links DOWN, with what waits for P1 at the head of each queue in turn, and for P2. -/
theorem test_hyps_LinkDownAndUp_up :
    (∀ l ∈ [({ protQueue := [(0, ownFrame)], ctrlQueue := [(1, ownFrame)] } : Lnk), { ctrlQueue := [(0, ownFrame)] },
        { setpoints := [(0, ownFrame)] }, { p1 := { slot := some slotEntry } }, { fq21 := [plainFrame] }, {}],
      let s : State := { dev := { dev0 with lnk := { l with p1 := { l.p1 with up := false } } } };
      s.power = .running ∧ (s.dev.lnk.port .p1).up = false ∧ s.dev.lnk.p1.tx = none ∧ s.dev.lnk.protQueue = l.protQueue ∧
        s.dev.lnk.ctrlQueue = l.ctrlQueue ∧ s.dev.lnk.setpoints = l.setpoints ∧ s.dev.lnk.p1.slot = l.p1.slot ∧
        s.dev.lnk.fq21 = l.fq21 ∧ s.dev.lnk.p1.reply = none ∧ s.dev.mgt.service = none) ∧
    (∀ l ∈ [({ p2 := { slot := some slotEntry } } : Lnk), { fq12 := [plainFrame] }, {}], ∀ m ∈ [devScreen 0 1, dev0],
      let s : State := { dev := { m with lnk := { l with p2 := { l.p2 with up := false } } } };
      s.power = .running ∧ (s.dev.lnk.port .p2).up = false ∧ s.dev.lnk.p2.tx = none ∧ s.dev.lnk.p2.slot = l.p2.slot ∧
        s.dev.lnk.fq12 = l.fq12 ∧ s.dev.lnk.p2.reply = none ∧ s.dev.mgt.service = none) ∧
    (devScreen 0 1).tab.device.notice ≠ 0 ∧ (devScreen 0 1).mgt.notices ≠ [] ∧ dev0.tab.device.notice = 0 := by decide +kernel

/-- A STATUS frame of breaker 0's bay, and a GENSET frame of set 0's controller. -/
theorem test_hyps_FieldReportsTaken :
    (let s : State := { dev := dev0 }
      let f := frameOf 0x500 0x201 2 [2, 1, 0];
      s.carries f (.status .closed true false) ∧ field f.payload 4 1 = 2 ∧ s.dev.tab.breakerAt (field f.payload 2 2) = some 0) ∧
    (let s : State := { dev := dev0 }
      let f := frameOf 0x500 0x401 4 [3, 1, 1];
      s.carries f (.genset .fault true true) ∧ field f.payload 4 1 = 4 ∧ s.dev.tab.genAt (field f.payload 2 2) = some 0) :=
  ⟨⟨⟨rfl, rfl, rfl, by decide, by decide, by decide, by decide⟩, by decide, by decide⟩,
    ⟨⟨rfl, rfl, rfl, by decide, by decide, by decide, by decide⟩, by decide, by decide⟩⟩

/-- A SAMPLE frame of stream 0 with a count. -/
def sampleFrame (count : Nat) : EthFrame := frameOf 0x500 0x301 1 (beBytes 2 count ++ [1, 0] ++ beBytes 4 (-2))

/-- A device whose ring runs from the count 0, its slot 15 delivered, with a number of samples ahead of the ring. -/
def devRing (ahead : Nat) : Dev :=
  { dev0 with sau := { streams := tset (Vector.replicate 24 {}) 0 { state := .locked, outOfWindow := ahead },
                       ring := some { oldest := 0, slots := tset (Vector.replicate 16 {}) 15 { delivered := [0] } } } }

/-- Distances 2000 (late), 15 (a duplicate), and 16 and 1999 (ahead of the ring, the first and the fourth in a row). -/
theorem test_hyps_SamplesNotPlaced :
    (∀ count ∈ [2000, 15, 16, 1999],
      content (Config.modulus false) (parseHeader (sampleFrame count).payload) (sampleFrame count).payload
          = .body (.sample count [.good] [-2]) ∧
        (sampleFrame count).checkOk = true ∧ (sampleFrame count).etherType = Config.baylineType ∧
        10 ≤ (sampleFrame count).payload.length ∧ field (sampleFrame count).payload 4 1 = 1 ∧
        field (sampleFrame count).payload 0 2 ≠ dev0.tab.device.station ∧
        field (sampleFrame count).payload 2 2 ≠ dev0.tab.device.station ∧
        dev0.tab.streamAt (field (sampleFrame count).payload 2 2) = some 0) ∧
    (∀ n ∈ [2, 3], ((devRing n).stream 0).outOfWindow = n ∧ (devRing n).lnk.p1.up = true ∧ (devRing n).work = [] ∧
      ((devRing n).streamCfg 0).forward = 0 ∧ ((devRing n).streamCfg 0).delay = 0 ∧
      (devRing n).sau.ring.any (fun r => decide (r.oldest = 0) && (tget r.slots 15).delivered.contains 0) = true) :=
  ⟨by decide, by decide⟩

/-- A pair for another quantity, a pair for the quantity, and a pair whose channel the frame lacks. -/
theorem test_hyps_PlacedSampleValues :
    (∀ p ∈ [((0, 5) : Nat × Nat)], p.2 ≠ (4 : Fin 96).val) ∧ ([((0, 5) : Nat × Nat), (1, 4)].map Prod.snd).Nodup ∧
      (1, (4 : Fin 96).val) ∈ [((0, 5) : Nat × Nat), (1, 4)] ∧ [0, (8388608 : Int)][1]? = some 8388608 ∧
      [Quality.good, .good][1]? = some .good ∧ (2, (4 : Fin 96).val) ∈ [((0, 5) : Nat × Nat), (2, 4)] ∧
      [0, (8388608 : Int)][2]? = none := by decide

/-- The ring that takes sample 0's counts at a distance. -/
def placedRing (d : Dev) (a : Nat) (k : Fin 16) : Ring :=
  let r : Ring := d.sau.ring.getD { oldest := a }
  { r with slots := tset r.slots k ((tget r.slots k).place 0 ((d.streamCfg 0).slots.toList.take (d.streamCfg 0).count) [.good] [-2])
           newest := if r.newest.all (fun n => decide ((n + 4000 - r.oldest) % 4000 < k.val)) then some a else r.newest }

/-- A stream's state once the sample of stream 0 is placed. -/
def placedState (d : Dev) (j : Fin 24) : StreamState :=
  if j = 0 ∧ ((d.stream 0).state = .seeking ∨ (d.stream 0).state = .lost) then .filling else (d.stream j).state

/-- Streams 0 and 1 in states, and a ring that runs from count 0 or none. -/
def devPlacing (s0 s1 : StreamState) (ring : Option Ring) : Dev :=
  { dev0 with sau := { streams := tset (tset (Vector.replicate 24 {}) 0 { state := s0 }) 1 { state := s1 }, ring := ring } }

/-- Placed where no slot closes: at distance 2, and in an IDLE ring, while stream 1 is LOCKED and has delivered nothing. -/
theorem test_hyps_PlacedSampleValues_stays :
    ∀ x ∈ [(some ({ oldest := 0 } : Ring), 2, (2 : Fin 16)), (none, 7, 0), (some { oldest := 3999, newest := some 2 }, 0, 1)],
      let d := devPlacing .lost .locked x.1;
      let r := placedRing d x.2.1 x.2.2;
      (x.2.1 + 4000 - (d.sau.ring.getD { oldest := x.2.1 }).oldest) % 4000 = x.2.2.val ∧
        (tget (d.sau.ring.getD { oldest := x.2.1 }).slots x.2.2).delivered.contains 0 = false ∧
        placedState d 1 = .locked ∧ (tget r.slots 0).delivered.contains 1 = false ∧
        r.newest.all (fun n => decide ((n + 4000 - r.oldest) % 4000 < 3 ∨ n = 2)) = true ∧ (d.streamCfg 0).forward ≠ 1 ∧ d.work = [] := by
  decide +kernel

/-- Placed where one slot closes: the only waiting stream has delivered, and the newest slot is three ahead. -/
theorem test_hyps_PlacedSampleValues_closes :
    (let d := devPlacing .seeking .off (some { oldest := 19 });
      let r := placedRing d 19 0;
      placedState d 0 = .filling ∧ (∀ j, j ≠ 0 → placedState d j = .off) ∧ (tget r.slots 0).delivered.contains 0 = true ∧
        r.newest = some r.oldest ∧ (tget r.slots 1).delivered.contains 0 = false) ∧
    (let d := devPlacing .locked .holding (some { oldest := 0 });
      let r := placedRing d 3 3;
      r.newest = some 3 ∧ (3 + 4000 - r.oldest) % 4000 = 3 ∧ (3 + 4000 - (r.oldest + 1) % 4000) % 4000 < 3 ∧
        placedState d 0 = .locked ∧ (tget r.slots 1).delivered.contains 0 = false) := by decide +kernel

theorem test_hyps_SamplesNotPlaced_carries (count n : Nat) (h : count = 15 ∨ count = 16 ∨ count = 1999 ∨ count = 2000) :
    ({ dev := devRing n } : State).carries (sampleFrame count) (.sample count [.good] [-2]) := by
  rcases h with rfl | rfl | rfl | rfl <;>
    exact ⟨rfl, rfl, rfl, Nat.le_add_right 10 8, (by decide : field _ 2 2 ≠ dev0.tab.device.station),
      (by decide : field _ 0 2 ≠ dev0.tab.device.station), (by decide : content (Config.modulus false) _ _ = _)⟩

/-- The stream's forward flag is set, and P2 is idle. -/
theorem test_hyps_SamplesNotPlaced_forward :
    let d := { devRing 0 with tab := { tables with streams := tmod tables.streams 0 (fun e => { e with forward := 1 }) } };
    (d.streamCfg 0).forward = 1 ∧ d.portIdle .p2 :=
  ⟨by decide, ⟨rfl, nofun⟩, rfl, rfl, rfl, nofun, fun _ => ⟨.inl rfl, rfl⟩⟩

/-! ## Expiries -/

theorem test_hyps_NotDueChangesNothing :
    awaited .echo = true ∧ Instr.echo ∉ State.reset.dev.due ∧ awaited (.statusAgeExpiry 23) = true ∧
      Instr.statusAgeExpiry 23 ∉ State.reset.dev.due ∧ State.reset.dev.work = [] := by decide

/-- Stream 0 is LOCKED, or FILLING, the others OFF, and the silence timer has run out. -/
theorem test_hyps_SilenceLosesStreams :
    (∃ s : State, s.power = .running ∧ s.dev.sau.silence = some 10 ∧ reached 10 s.dev.now = true ∧
      (s.dev.stream 0).state.active = true ∧ (s.dev.stream 1).state.active = false ∧ s.dev.work = []) ∧
    (∃ s : State, s.power = .running ∧ s.dev.sau.silence = some 10 ∧ reached 10 s.dev.now = true ∧
      (s.dev.stream 0).state.active = true ∧ ∀ i, (s.dev.stream i).state ≠ .locked ∧ (s.dev.stream i).state ≠ .holding) :=
  ⟨⟨{ dev := { devRing 0 with sau := { (devRing 0).sau with silence := some 10 }, now := 10 } }, by decide⟩,
    ⟨{ dev := { devPlacing .filling .off none with sau := { (devPlacing .filling .off none).sau with silence := some 10 }, now := 10 } },
      by decide⟩⟩

theorem test_hyps_AgesExpire :
    (∃ s : State, s.power = .running ∧ (s.dev.breaker 0).aged = false ∧
      reached (after (s.dev.breaker 0).ageFrom 3000) s.dev.now = true) ∧
    (∃ s : State, s.power = .running ∧ (s.dev.gen 0).aged = false ∧ reached (after (s.dev.gen 0).ageFrom 2000) s.dev.now = true) :=
  ⟨⟨{ dev := { dev0 with now := 3000 } }, by decide⟩, ⟨{ dev := { dev0 with now := 2000 } }, by decide⟩⟩

/-- A record of an OPEN. -/
def record0 : CmdRecord :=
  { id := 1, action := .openIt, prot := false, requester := .block .mgt, issue := 0, nextRepeat := 2, opEnd := 100 }

/-- A record of a protection OPEN with breaker failure armed. -/
def recordBf : CmdRecord := { record0 with prot := true, requester := .element 0, bfEnd := some 50 }

theorem test_hyps_CommandRepeatSent :
    ∀ r ∈ [record0, recordBf, { record0 with repeatNo := 4 }, { record0 with repeatNo := 255 }],
      let d := { devBreaker { record := some r } with now := 2 };
      (d.breaker 0).record = some r ∧ reached r.nextRepeat d.now = true ∧ d.lnk.p1.up = true ∧ d.lnk.p1.tx.isSome = true := by
  decide

/-- The error list holds 14 entries. -/
def errors14 : List ErrorEntry := List.replicate 14 { code := .genFailed, subject := 0, firstMs := 0, lastMs := 0, count := 1 }

theorem test_hyps_OperateAndFailureTimers :
    (∀ r ∈ [record0, { record0 with prot := true, requester := .element 0 }, { recordBf with bfOperated := true }],
      let d : Dev := { devBreaker { record := some r } with now := 100, mgt := { errors := errors14 } };
      (d.breaker 0).record = some r ∧ reached r.opEnd d.now = true ∧ (r.bfEnd = none ∨ r.bfOperated = true) ∧
        d.mgt.errors.length < 15 ∧ d.work = [] ∧ r.tellChg = false ∧ (d.breaker 0).releasePending = false) ∧
    (let d : Dev := { devBreaker { record := some recordBf } with now := 100, mgt := { errors := errors14.take 13 } };
      (d.breaker 0).record = some recordBf ∧ reached recordBf.opEnd d.now = true ∧ recordBf.bfEnd = some 50 ∧
        recordBf.bfOperated = false ∧ d.mgt.errors.length < 14 ∧ 1 ∈ (d.breakerCfg 0).backupIds ∧ 0 ∉ (d.breakerCfg 0).backupIds ∧
        (d.breakerCfg 1).used = true) ∧
    (let d := { devBreaker { record := some recordBf } with now := 50 };
      (d.breaker 0).record = some recordBf ∧ recordBf.bfEnd = some 50 ∧ recordBf.bfOperated = false ∧ reached 50 d.now = true ∧
        1 ∈ (d.breakerCfg 0).backupIds ∧ 0 ∉ (d.breakerCfg 0).backupIds ∧ (d.breakerCfg 1).used = true) := by decide

/-- The devices of the second and third part hold one protection record, an OPEN. -/
theorem test_hyps_OperateAndFailureTimers_opens (now : Count32) (m : Mgt) (b : Fin 24) :
    (({ devBreaker { record := some recordBf } with now := now, mgt := m } : Dev).breaker b).protOpens := by
  have h : ∀ b, ((devBreaker { record := some recordBf }).breaker b).record = none ∨
      ((devBreaker { record := some recordBf }).breaker b).record = some recordBf := by decide
  intro c e _
  have e : ((devBreaker { record := some recordBf }).breaker b).record = some c := e
  rcases h b with n | n <;> rw [n] at e <;> cases e
  rfl

/-- A loss timer of A ends with CHG IDLE and a scheme in every cause entry, the other source up and down; a return timer of B;
a loss timer in INHIBITED. -/
theorem test_hyps_SourceTimerExpires :
    (∀ x ∈ [(SourceState.healthy, Cause.lossA), (.failed, .lossBoth)],
      let d : Dev := { dev0 with now := 1000, tab := { tables with causes := Vector.replicate 5 7 }
                                 chg := { state := .idle, sourceA := { timer := .running true 1000 }, sourceB := { state := x.1 } } };
      (d.chg.source .a).timer = .running true 1000 ∧ reached 1000 d.now = true ∧ d.chg.state = .idle ∧ d.chg.pending = [] ∧
        x.2 = (if d.sourceDown .b then .lossBoth else .lossA) ∧ d.causeScheme x.2 = some 7) ∧
    (let d : Dev := { dev0 with now := 1000, tab := { tables with causes := Vector.replicate 5 7 }
                                chg := { state := .idle, sourceB := { timer := .running false 1000 } } };
      (d.chg.source .b).timer = .running false 1000 ∧ reached 1000 d.now = true ∧ d.chg.state = .idle ∧ d.chg.pending = [] ∧
        d.causeScheme .returnB = some 7) ∧
    (let d : Dev := { dev0 with now := 1000, chg := { state := .inhibited, sourceA := { timer := .running true 1000 } } };
      (d.chg.source .a).timer = .running true 1000 ∧ reached 1000 d.now = true ∧ d.chg.state = .inhibited) := by decide

/-- A transfer whose first step is as given and whose second is END with cond 0. -/
def transfer (e : StepEntry) (phase : StepPhase) : Transfer :=
  { scheme := 2, cause := none, startMs := 0, startInst := 0, stepStart := 0, phase := phase
    entry := { count := 2, steps := ((Vector.replicate 32 {}).set 0 e).set 1 StepEntry.endStep }
    waitEnd := some 1000, deadline := some 1000 }

/-- A device that runs a transfer, at 1000 ms. -/
def devTransfer (t : Transfer) : Dev := { dev0 with now := 1000, chg := { state := .running, transfer := some t } }

theorem test_hyps_StepDeadlines :
    (let t := transfer { kind := 1 } .waitingBreaker;
      (devTransfer t).running = some t ∧ t.phase = .waitingBreaker ∧ reached? t.waitEnd (devTransfer t).now = true) ∧
    (let t := transfer { kind := 3, time := 1000 } .synchronising;
      (devTransfer t).running = some t ∧ t.step.kind = 3 ∧ reached? t.deadline (devTransfer t).now = true) ∧
    (let t := transfer { kind := 4, time := 1000, link := 255 } .waiting;
      (devTransfer t).running = some t ∧ t.step.kind = 4 ∧ t.phase = .waiting ∧ t.step.link = 255 ∧
        reached? t.deadline (devTransfer t).now = true) ∧
    (∀ x ∈ [(({ kind := 5, time := 1000 } : StepEntry), StepPhase.timing), ({ kind := 4, time := 1000, link := 1 }, .waiting)],
      let t := transfer x.1 x.2;
      (devTransfer t).running = some t ∧ reached? t.deadline (devTransfer t).now = true ∧
        ((t.step.kind = 5 ∧ (1 : Fin 32).val = t.index + 1) ∨
          (t.step.kind = 4 ∧ t.phase = .waiting ∧ t.step.link ≠ 255 ∧ (1 : Fin 32).val = t.step.link)) ∧
        (tget t.entry.steps 1).kind = 8 ∧ (tget t.entry.steps 1).cond = 0 ∧ (devTransfer t).chg.pending = []) := by decide

/-- An overlap record whose timer runs out at 1000 ms. -/
def overlap0 : Overlap :=
  { breaker := 0, set1 := { a := true }, set2 := { b := true }, scheme := 2, limit := 100, tripBreaker := 255, start := 900
    expiry := 1000 }

theorem test_hyps_OverlapTimerExpires :
    (let t := transfer { kind := 3, time := 1000 } .requested;
      let d : Dev := { devTransfer t with chg := { (devTransfer t).chg with overlap := some overlap0 }
                                          mgt := { errors := errors14.take 13 } };
      d.chg.overlap = some overlap0 ∧ reached overlap0.expiry d.now = true ∧ 24 ≤ overlap0.tripBreaker ∧ d.work = [] ∧
        d.mgt.errors.length < 14 ∧ d.running = some t ∧ t.scheme = overlap0.scheme) ∧
    (let d : Dev := { dev0 with now := 1000, chg := { state := .idle, overlap := some overlap0 } };
      d.chg.overlap = some overlap0 ∧ reached overlap0.expiry d.now = true ∧ d.work = [] ∧ d.running = none) := by decide

/-- An overlap record that names a trip breaker, the breaker's record being as given. -/
def devOverlap (trip : Nat) (rec : Option CmdRecord) : Dev :=
  { devBreaker { record := rec, reported := .closed } with
    now := 1000, chg := { state := .idle, overlap := some { overlap0 with tripBreaker := trip } } }

/-- A CLOSE_SYNC step that waits for its record's end. -/
def closing : Transfer :=
  { transfer { kind := 3, time := 1000 } .requested with cmdId := some 5, set1 := { a := true }, set2 := { gen := true } }

/-- A trip breaker 0 with no record, with a protection's and with another's; an unused one; a CLOSE_SYNC step that makes an overlap
record, and one whose two sets share a source. -/
theorem test_hyps_OverlapTimerExpires_trip :
    (∀ r ∈ [none, some recordBf],
      let d := devOverlap 0 r;
      d.chg.overlap = some { overlap0 with tripBreaker := 0 } ∧ reached overlap0.expiry d.now = true ∧ d.work = [] ∧
        d.mgt.errors.length < 14 ∧ (d.breakerCfg 0).used = true ∧ (d.breaker 0).record = r ∧ d.running = none ∧
        r.all (fun x => x.prot) = true ∧ d.lnk.p1.up = true ∧ d.lnk.p1.tx.isSome = true) ∧
    ((devOverlap 0 (some record0)).breaker 0).record = some record0 ∧ record0.prot = false ∧
    ((devOverlap 23 none).breakerCfg 23).used = false ∧
    (let d : Dev := { dev0 with now := 1000, chg := { state := .running, transfer := some closing } };
      d.running = some closing ∧ closing.phase = .requested ∧ closing.cmdId = some 5 ∧ closing.step.breaker = some 0 ∧
        closing.step.kind = 3 ∧ closing.set1 ≠ {} ∧ closing.set2 ≠ {} ∧
        ¬ ((closing.set1.a = true ∧ closing.set2.a = true) ∨ (closing.set1.b = true ∧ closing.set2.b = true) ∨
          (closing.set1.gen = true ∧ closing.set2.gen = true))) := by decide +kernel

/-- Buses 0 and 1, each a source's, joined by breaker 0 in a position; the overlap record is of breaker 0. -/
def devParallel (p : Position) : Dev :=
  { dev0 with tab := { tables with sources := #v[{ bus := 0 }, { bus := 1 }] }
              swm := { breakers := tset (Vector.replicate 24 {}) 0 { reported := p } }
              chg := { overlap := some overlap0 } }

/-- The overlap's two sets still meet, and no longer do. -/
theorem test_hyps_OverlapTimerExpires_positions :
    (∀ p ∈ [Position.closed, .openPos], (devParallel p).chg.overlap = some overlap0) ∧
    (devParallel .closed).sideSet ((devParallel .closed).breakerCfg 0).bus1 = { a := true, b := true } ∧
    (devParallel .openPos).sideSet ((devParallel .openPos).breakerCfg 0).bus1 = { a := true } ∧
    overlap0.set1 = { a := true } ∧ overlap0.set2 = { b := true } := by decide +kernel

/-- A device in settling with source A's bus live and its frequency nominal, and no source B. -/
def devSettling (now : Count32) : Dev :=
  { dev0 with now := now
              tab := { tables with sources := tset (Vector.replicate 2 {}) 0 { bus := 0 }
                                   buses := tset (Vector.replicate 6 {}) 0 { group := 0 } }
              swm := { buses := tset (Vector.replicate 6 {}) 0 { state := .live } }
              meas := { groups := tset (Vector.replicate 24 {}) 0 { dfQ := .good } } }

/-- Settling ends because everything has reported, and because 5000 ms have gone. -/
theorem test_hyps_SettlingEnds :
    (let d : Dev := { devSettling 4999 with tab := { (devSettling 0).tab with breakers := Vector.replicate 24 {}
                                                                              streams := Vector.replicate 24 {} } };
      d.chg.state = .settling ∧ d.settled = true) ∧
    (let d := devSettling 5000;
      d.chg.state = .settling ∧ d.settled = false ∧ reached (after 0 5000) d.now = true ∧ d.now.toNat + 100 < 2 ^ 32 ∧
        d.judgement .a = .healthy ∧ d.judgement .b = .undetermined ∧ (∀ u, u = Utility.a ∨ u = .b) ∧
        (d.chg.source .a).state = .unknown ∧ (d.chg.source .b).state = .unknown) := by
  refine ⟨by decide, by decide, by decide, by decide, by decide, by decide, by decide, ?_, by decide, by decide⟩
  intro u
  cases u
  · exact .inl rfl
  · exact .inr rfl

theorem test_hyps_GeneratorTimersExpire :
    ∀ x ∈ [GenState.starting, .syncWait, .syncing, .closing, .cooldown],
      let d : Dev := { devGen { state := x, engine := .running, timer := some 500 } with now := 500 };
      (d.gen 0).state = x ∧ (d.gen 0).engine = .running ∧ reached? (d.gen 0).timer d.now = true ∧
        (x.inSync = true ∨ x = .starting ∨ x = .closing ∨ x = .cooldown) := by decide

/-- Two sets on a generator bus in a state, their breakers OPEN, charged and remote, each with a LIVE generator side. -/
def devGenBus (r0 r1 : GenRec) (bus : BusState) : Dev :=
  { mode := .inService
    lnk := devBusy.lnk
    tab := { gens := tset (tset (Vector.replicate 6 {}) 0 { addr := 1, breaker := 0, group := 0, rating := 2000, rank := 1 })
                       1 { addr := 2, breaker := 1, group := 1, rating := 2000, rank := 6 }
             breakers := tset (tset (Vector.replicate 24 {}) 0 { addr := 3, kind := 3, side1 := 0 }) 1 { addr := 4, kind := 3, side1 := 0 }
             groups := tset (tset (Vector.replicate 24 {}) 0 { phaseV := #v[0, 1, 2], nominal := 400 }) 2 { phaseV := #v[3, 4, 5], nominal := 400 }
             buses := tset (Vector.replicate 6 {}) 0 { group := 2 } }
    par := { settled := true, gens := tset (tset (Vector.replicate 6 {}) 0 r0) 1 r1 }
    swm := { breakers := Vector.replicate 24 { reported := .openPos, inLocal := false, spring := true, genSide := .live }
             buses := tset (Vector.replicate 6 {}) 0 { state := bus } } }

/-- The grant: held, a bus that is not DEAD, a blocked one, no set that waits, and two that do. -/
theorem test_hyps_GeneratorTimersExpire_grant :
    (let d := devGenBus { state := .deadBusWait } {} .dead;
      ({ d with par := { d.par with grant := some 0 } } : Dev).par.grant.isSome = true ∧ d.genBus = some 0) ∧
    (devGenBus {} {} .live).genBusState ≠ .dead ∧
    (∀ g, ((devGenBus {} {} .dead).gen g).state ≠ .deadBusWait) ∧
    (let d := devGenBus { state := .deadBusWait } { state := .deadBusWait } .dead;
      d.par.grant = none ∧ d.genBusState = .dead ∧ (∀ y, d.genBus = some y → (d.busCfg y).block = 0) ∧ (d.genCfg 0).used = true ∧
        (d.gen 0).state = .deadBusWait ∧ (d.genCfg 0).rank = 1 ∧ (d.genCfg 1).rank = 6 ∧
        (∀ k, k ≠ 0 → (d.genCfg k).used = true → (d.gen k).state = .deadBusWait → (d.genCfg 0).rank < (d.genCfg k).rank) ∧
        d.genBreaker 0 = some 0 ∧ d.sides 0 = (.dead, .live)) := by decide +kernel

theorem test_hyps_GeneratorTimersExpire_takes (r0 r1 : GenRec) (bus : BusState) : (devGenBus r0 r1 bus).takesClose 0 :=
  ⟨⟨rfl, rfl, nofun, .inl rfl, rfl⟩, rfl, rfl, rfl, rfl, rfl, rfl⟩

/-- The synchroniser serves a request, with `met` instants met and an incoming frequency deviation. -/
def devSync (r : SyncReq) (met : Nat) (accepted : Bool) (df : Int) : Dev :=
  let x := devGenBus { state := .syncing, timer := some 900 } { state := .syncWait } .live
  { x with
    par := { x.par with sync := { served := some r, met := met, accepted := accepted, lastMet := 3 } }
    sau := { inst := 4 }
    meas := { quantities := Vector.replicate 96 { phasor := { re := 10000 }, rms := 7071, quality := .good }
              groups := tset (tset (Vector.replicate 24 {}) 0 { df := df, dfQ := .good }) 2 { dfQ := .good } } }

/-- A bus request of CHG's. -/
def busReq : BusRequest := { breaker := 0, refGroup := some 2, inGroup := some 0, adjust := false }

/-- All tests hold up to the slip window of 200 mHz, and not beyond it or below 0. -/
theorem test_hyps_GeneratorTimersExpire_sync :
    (∀ r ∈ [SyncReq.gen 0, .bus busReq], ∀ met ∈ [0, 1], ∀ accepted : Bool, ∀ df ∈ [(0 : Int), 200],
      let d := devSync r met accepted df;
      let ref := d.phaseAVoltage (d.reqRefGroup r);
      let inc := d.phaseAVoltage (d.reqInGroup r);
      d.par.sync.served = some r ∧ d.par.sync.met = met ∧ d.par.sync.accepted = accepted ∧
        (d.deviation (d.reqInGroup r)) = (df, true) ∧ (d.deviation (d.reqRefGroup r)) = (0, true) ∧ df ≤ d.tab.par.slipWindow ∧
        vectorWindow ref.1 inc.1 ref.2.2 inc.2.2 d.tab.par.angle = .inside ∧ ref.2.2.valid = true ∧ inc.2.2.valid = true ∧
        ref.2.1 = inc.2.1 ∧ d.genBreaker 0 = some 0 ∧ d.sides 0 = (.live, .live)) ∧
    (∀ df ∈ [(201 : Int), -1],
      let d := devSync (.gen 0) 1 false df;
      (d.deviation (d.reqInGroup (.gen 0))) = (df, true) ∧ ¬ (0 ≤ df ∧ df ≤ d.tab.par.slipWindow)) := by decide +kernel

/-- A free synchroniser with two sets that wait, and with a bus request besides. -/
theorem test_hyps_GeneratorTimersExpire_examine :
    (let d := devGenBus { state := .syncWait, timer := some 9 } { state := .syncWait } .live;
      d.par.sync.served = none ∧ d.par.busWaiting = none ∧ (d.gen 0).state = .syncWait ∧ d.genBreaker 0 = some 0 ∧
        d.sideBlocked 0 = false ∧
        (∀ k, k ≠ 0 → (d.genCfg k).used = true → (d.gen k).state = .syncWait → ¬ (d.genCfg k).rank ≤ (d.genCfg 0).rank)) ∧
    (let d := devGenBus {} {} .live;
      ({ d with par := { d.par with busWaiting := some busReq } } : Dev).par.busWaiting = some busReq ∧
        d.sideBlocked busReq.breaker = false) := by decide +kernel

theorem test_hyps_SetpointPeriodServed :
    ∀ x ∈ [GenState.onBus, .stopping],
      let d := devGen { state := x };
      d.par.settled = true ∧ reached d.par.periodDue d.now = true ∧ d.lnk.p1.up = true ∧ d.lnk.p1.tx.isSome = true ∧
        ((d.gen 0).state.running = true ∨ (d.gen 0).state = .stopping) := by decide

/-! ## Store writes -/

/-- The device with a WRITE of an area in its store write. -/
def devStoring (a first : Nat) (recs : List (List Int)) : State :=
  { dev := { dev0 with mgt := { service := some ⟨req 4 [], .storing a first recs⟩, errors := errors14 } } }

theorem test_hyps_WriteCompletions :
    (∃ (s : State) (q : Request), s.power = .running ∧ s.dev.mgt.service = some ⟨q, .storing 15 0 [[0]]⟩ ∧
      writeEnd (.captureConfigWriteComplete true) = some (15, true) ∧ 15 ∉ [3, 6, 9, 11] ∧ s.dev.work = []) ∧
    (∃ (s : State) (q : Request), s.power = .running ∧ s.dev.mgt.service = some ⟨q, .storing 2 0 [[0x100, 0, 0, 0]]⟩ ∧
      writeEnd (.deviceWriteComplete false) = some (2, false) ∧ s.dev.mgt.errors.length < 15) ∧
    (∃ s : State, s.power = .running ∧ writeEnd (.zonesWriteComplete true) = some (8, true) ∧
      ∀ q first recs, s.dev.mgt.service ≠ some ⟨q, .storing 8 first recs⟩) :=
  ⟨⟨devStoring 15 0 [[0]], _, rfl, rfl, rfl, by decide, rfl⟩,
    ⟨devStoring 2 0 [[0x100, 0, 0, 0]], _, rfl, rfl, rfl, by decide⟩, ⟨{}, rfl, rfl, nofun⟩⟩

/-- Writes of a stream, a group and an element, and of a breaker and a generator entry whose address changes. -/
theorem test_hyps_WrittenEntriesRestart :
    (∀ x ∈ [(Instr.streamsWriteComplete true, 3), (.groupsWriteComplete true, 5), (.elementsWriteComplete true, 6),
        (.breakersWriteComplete true, 9), (.generatorsWriteComplete true, 14)],
      writeEnd x.1 = some (x.2, true) ∧ (devStoring x.2 0 [[0x203]]).dev.mgt.service = some ⟨req 4 [], .storing x.2 0 [[0x203]]⟩) ∧
    (∃ t, exec (.breakersWriteComplete true) (devStoring 9 0 [[0x203]]) = .next t ∧
      (t.dev.breakerCfg 0).addr ≠ ((devStoring 9 0 [[0x203]]).dev.breakerCfg 0).addr) ∧
    (∃ t, exec (.generatorsWriteComplete true) (devStoring 14 0 [[0x403]]) = .next t ∧
      (t.dev.genCfg 0).addr ≠ ((devStoring 14 0 [[0x403]]).dev.genCfg 0).addr) :=
  ⟨by decide, ⟨_, rfl, by decide +kernel⟩, ⟨_, rfl, by decide +kernel⟩⟩

theorem test_hyps_StateStoreWriteEnds :
    ∀ js ∈ [([] : List StoreJob), [.lockout 23 1], [.block 5 0, .cause 4 255]],
      let s : State := { dev := { dev0 with swm := { jobs := js }, mgt := { errors := errors14 } } };
      s.power = .running ∧ s.dev.swm.jobs = js ∧ s.dev.mgt.errors.length < 15 ∧ s.dev.work = [] := by decide

/-- The records of a DEVICE never written, and of the last record of GENERATORS, fit. -/
theorem test_hyps_ReadThenWriteKeepsTables :
    (∀ x ∈ (({} : Dev).areaFields 2 0).flatten, x.fits) ∧ ∀ x ∈ (({} : Dev).areaFields 14 6).flatten, x.fits := by
  unfold Scalar.fits; decide

/-! ## Requests -/

theorem test_hyps_RequestsTurnedAway :
    (∃ s : State, s.power = .running ∧ s.dev.mgt.service = none ∧ s.dev.mgt.queue = [req 3 [2, 0, 0, 0]] ∧
      (req 3 [2, 0, 0, 0]).params.length = 4 ∧ fixedLength 3 = 5) ∧
    (asking dev0 (opReq 12 0)).serves (opReq 12 0) [] (10, 12) :=
  ⟨⟨asking dev0 (req 3 [2, 0, 0, 0]), by decide⟩, asking_serves rfl rfl rfl (by decide)⟩

/-- A MGMT-REQ frame of station 7 to the part. -/
def requestFrame (code : Nat) : EthFrame := frameOf 0x0100 7 6 [BitVec.ofNat 8 code, 0, 1]

/-- Requests of station 7 wait, and one may be in service; both ports are idle, or a reply waits for P1. -/
def devAsked (n : Nat) (service : Option Service) (waits : Bool) : Dev :=
  { dev0 with mgt := { queue := List.replicate n (req 1 []), service := service, selection := some ⟨7, 0, 0, 0⟩ }
              lnk := { p1 := if waits then { tx := some plainFrame, reply := some ownFrame } else {} } }

/-- An arrival on either port, of IDENT and of ABORT, with three and with four waiting; a response that an ABORT stops, one of a
WRITE whose answer is not placed, and one of another originator. -/
theorem test_hyps_RequestsTurnedAway_arrivals :
    (∀ p ∈ [Port.p1, .p2], ∀ code ∈ [1, 13], ∀ n ∈ [3, 4], ∀ w : Bool,
      let f := requestFrame code;
      let d := devAsked n none w;
      (d.lnk.port p).up = true ∧ f.checkOk = true ∧ f.etherType = 0x88B5 ∧ 10 ≤ f.payload.length ∧
        field f.payload 2 2 ≠ d.tab.device.station ∧ field f.payload 0 2 = d.tab.device.station ∧
        content (Config.modulus d.f60) (parseHeader f.payload) f.payload = .body (.request code 1 []) ∧
        d.mgt.queue.length = n) ∧
    ((devAsked 4 none true).lnk.port .p1).reply.isSome = true ∧ (devAsked 4 none false).portIdle .p1 ∧
    (∀ x ∈ [(⟨req 1 [], .acting⟩ : Service), ⟨req 1 [], .sending { result := 0, owed := true, placed := true }⟩],
      (devAsked 4 (some x) false).mgt.service = some x ∧ x.req.src = 7 ∧
        (x.stage = .acting ∨ ∃ r : Response, x.stage = .sending r ∧ (r.owed = true → r.placed = true))) ∧
    ((⟨req 4 [], .sending { result := 0, owed := true }⟩ : Service).stage ≠ .acting) ∧ (req 4 []).port = .p2 ∧
    ({ req 1 [] with src := 8 } : Request).src ≠ 7 := by
  refine ⟨by decide +kernel, rfl, ⟨⟨rfl, nofun⟩, rfl, rfl, rfl, fun _ => ⟨rfl, rfl, rfl, rfl⟩, nofun⟩, ?_, nofun, rfl, by decide⟩
  intro x hx
  rcases List.mem_cons.1 hx with rfl | hx
  · exact ⟨rfl, rfl, .inl rfl⟩
  · rcases List.mem_cons.1 hx with rfl | hx
    · exact ⟨rfl, rfl, .inr ⟨_, rfl, fun _ => rfl⟩⟩
    · exact nomatch hx

/-- IDENT, ECHO, a READ of the last record of an area, one beyond it, and WATCH_READ. -/
theorem test_hyps_ReadingRequestsAnswered :
    (asking dev0 (req 1 [])).serves (req 1 []) [] (1, 0) ∧ (asking dev0 (req 2 [5])).serves (req 2 [5]) [] (2, 0) ∧
    ((asking dev0 (req 3 [3, 0, 23, 0, 1])).serves (req 3 [3, 0, 23, 0, 1]) [] (3, 0) ∧ 3 ≤ 20 ∧ 23 + 1 ≤ areaCount 3) ∧
    ((asking dev0 (req 3 [3, 0, 23, 0, 2])).serves (req 3 [3, 0, 23, 0, 2]) [] (3, 0) ∧ ¬ 23 + 2 ≤ areaCount 3) ∧
    (asking dev0 (req 6 [])).serves (req 6 []) [] (6, 0) :=
  ⟨asking_serves rfl rfl rfl (by decide), asking_serves rfl rfl rfl (by decide), ⟨asking_serves rfl rfl rfl (by decide), by decide⟩,
    ⟨asking_serves rfl rfl rfl (by decide), by decide⟩, asking_serves rfl rfl rfl (by decide)⟩

/-- ECHO requests with data of the longest segment, of one byte more, and of the most that a request carries. -/
theorem test_hyps_EchoSegments :
    (∀ n : Nat, (asking dev0 (req 2 (List.replicate n 7))).serves (req 2 (List.replicate n 7)) [] (2, 0) ∧
      (asking dev0 (req 2 (List.replicate n 7))).dev.portIdle .p2 ∧ (req 2 (List.replicate n 7)).params.length = n) ∧
    1024 ≤ 1024 ∧ 1024 < 1025 ∧ 1024 < 1487 :=
  ⟨fun _ => ⟨asking_serves rfl rfl rfl (Nat.zero_le _), ⟨⟨rfl, nofun⟩, rfl, rfl, rfl, nofun, fun _ => ⟨.inl rfl, rfl⟩⟩,
    List.length_replicate⟩, by decide⟩

/-- A WRITE of the last record of CAUSES that passes, with MGW asserted, and the same with MGW not asserted. -/
theorem test_hyps_WriteGoesToStoreOrIsRefused :
    (∀ m : Bool, (asking { dev0 with mgw := m } (req 4 [12, 0, 4, 0, 1, 255])).serves (req 4 [12, 0, 4, 0, 1, 255]) [] (4, 0)) ∧
    ({ dev0 with mgw := true } : Dev).checkWrite 12 4 1 [255] = 0 ∧ ({ dev0 with mgw := false } : Dev).checkWrite 12 4 1 [255] ≠ 0 :=
  ⟨fun _ => asking_serves rfl rfl rfl (by decide), by decide +kernel, by decide +kernel⟩

/-- A WRITE on a device, with its parameters: the result of its checks. -/
def writeResult (d : Dev) (ps : List Byte) : Nat := d.checkWrite (field ps 0 1) (field ps 1 2) (field ps 3 2) (ps.drop 5)

/-- A lock word that locks the element ids 0 and 1, or with its complement all others. -/
def devLocking (complement : Nat) : Dev :=
  { dev0 with mgw := true, tab := { tables with lock := { span := 2, complement := complement } } }

/-- One WRITE for each check that may fail, each passing the checks before it, in the order of R204: an area or a record that there
is not; a byte too few or too many; a read-only area, and a SERVICE area in another mode; MGW not asserted; a locked element entry by
either sense of the complement; a scheme number that CAUSES lacks. -/
theorem test_hyps_WriteGoesToStoreOrIsRefused_results :
    (∀ ps ∈ [[21, 0, 0, 0, 1], [12, 0, 0, 0, 0], [12, 0, 5, 0, (1 : Byte)]], writeResult dev0 ps = 1) ∧
    (∀ ps ∈ [[12, 0, 4, 0, 1], [12, 0, 4, 0, 1, 255, (0 : Byte)]], writeResult dev0 ps = 2) ∧
    writeResult dev0 ([0, 0, 0, 0, 1] ++ List.replicate (areaSize 0) 0) = 3 ∧
    writeResult { dev0 with mode := .inService } ([4, 0, 0, 0, 1] ++ List.replicate (areaSize 4) 0) = 3 ∧
    writeResult { dev0 with mgw := false } [12, 0, 4, 0, 1, 255] = 4 ∧
    (∀ x ∈ [(0, (1 : Byte)), (1, 2)],
      writeResult (devLocking x.1) ([6, 0, x.2, 0, 1] ++ List.replicate (areaSize 6) 0) = 5) ∧
    writeResult { dev0 with mgw := true } [12, 0, 4, 0, 1, 8] = 6 := by decide +kernel

/-- A WRITE of a set that is not STOPPED, and of a breaker with a claim. -/
theorem test_hyps_WriteGoesToStoreOrIsRefused_busy :
    (let d := devGen { state := .onBus };
      0 ≤ (0 : Fin 6).val ∧ (0 : Fin 6).val < 0 + 1 ∧ (d.gen 0).state ≠ .stopped ∧ d.writeBusy 14 0 [[]] = true) ∧
    ((devBreaker { claim := some .par }).writeBusy 9 0 [[]] = true ∧ (devBreaker {}).writeBusy 9 0 [[]] = false) := by decide +kernel

/-- An element record: enable, then kind OV, a time dial that OV lacks and three trip ids of which the count uses none. -/
def elementInts (enable : Int) : List Int := [enable, 5, 0, 100, 0, 0, 7, 0, 0, 0, 0, 0, 0, 1, 1, 1, 255, 0, 0, 0, 0, 0]

/-- Written with enable 0 the record passes and is carried with its inapplicable fields 0 and its unused ids 255; with enable 1 it is
kept as written, so that R64 refuses it. -/
theorem test_element_unused_fields :
    (tget (tables.writeRecords 6 0 [elementInts 0]).elements 0 = { kind := 5, pickup := 100 }) ∧
    writeOk tables 6 0 [elementInts 0] = true ∧
    (tget (tables.writeRecords 6 0 [elementInts 1]).elements 0).dial = 7 ∧ writeOk tables 6 0 [elementInts 1] = false := by
  decide +kernel

/-- Lists of a wrong length, of no item, with a field that the record lacks, and with the last field of the last record. -/
theorem test_hyps_WatchSetTakesList :
    (∀ ps : List Byte, 1 ≤ ps.length → (asking dev0 (req 5 ps)).serves (req 5 ps) [] (5, 0)) ∧
    [1, 2, 0, (0 : Byte)].length ≠ 1 + 4 * 1 ∧ [(0 : Byte)].length = 1 + 4 * 0 ∧
    (watchItems 1 [2, 0, 0, 4]).all (Dev.watchable dev0) = false ∧ (watchItems 1 [2, 0, 0, 3]).all (Dev.watchable dev0) = true :=
  ⟨fun _ h => asking_serves rfl rfl rfl h, by decide⟩

/-- A device in TEST mode with element 31 enabled. -/
def devTest (mgw : Bool) : Dev :=
  { dev0 with mode := .test, mgw := mgw, tab := { tables with elements := tset (Vector.replicate 32 {}) 31 { enable := 1 } } }

/-- One item: breaker 23 with each code, and element 31 with each code; the same in another mode and without MGW; and
FORCE_CLEAR_ALL. -/
theorem test_hyps_ForcingTakesEffect :
    (∀ (d : Dev) (ps : List Byte), d.mgt.service = none → d.work = [] → 1 ≤ ps.length →
      (asking d (req 7 ps)).serves (req 7 ps) [] (7, 0)) ∧
    (∀ code ∈ [(0 : Byte), 1, 2, 3], field [1, 0, 23, code] 0 1 = 1 ∧ field [1, 0, 23, code] 1 1 = 0 ∧
      field [1, 0, 23, code] 2 1 = (23 : Fin 24).val ∧ field [1, 0, 23, code] 3 1 ≤ 3) ∧
    (∀ code ∈ [(0 : Byte), 1, 4, 5], field [1, 1, 31, code] 1 1 = 1 ∧ field [1, 1, 31, code] 2 1 = (31 : Fin 32).val ∧
      field [1, 1, 31, code] 3 1 ∈ [0, 1, 4, 5]) ∧
    (devTest true).mode = .test ∧ (devTest true).mgw = true ∧ ((devTest true).elementCfg 31).enable = 1 ∧
    ((devTest true).element 31).forced = .none ∧ (devTest false).mgw = false ∧ dev0.mode ≠ .test ∧
    (asking dev0 (req 8 [])).serves (req 8 []) [] (8, 0) :=
  ⟨fun _ _ f w l => asking_serves f w rfl l, by decide, by decide, rfl, rfl, by decide, by decide, rfl, by decide,
    asking_serves rfl rfl rfl (by decide)⟩

/-- Targets 12 and 13, with no selection, with the originator's own and with another's; CANCEL; a selection of 30 s. -/
theorem test_hyps_SelectionTakenAndEnded :
    (∀ (m : Mgt) (target : Byte), m.service = none →
      (asking { dev0 with mgt := m } (req 9 [target, 0])).serves (req 9 [target, 0]) [] (9, 0)) ∧
    (req 9 [13, 0]).target = 13 ∧ (req 9 [12, 0]).target = 12 ∧
    (∃ m : Mgt, m.service = none ∧ ∃ x, m.selection = some x ∧ x.owner ≠ 7) ∧
    (∃ m : Mgt, m.service = none ∧ m.selection = none) ∧
    (∃ m : Mgt, m.service = none ∧ ∃ x, m.selection = some x ∧ x.owner = 7) ∧
    (asking dev0 (req 11 [])).serves (req 11 []) [] (11, 0) ∧
    (∃ (s : State) (x : Selection), s.power = .running ∧ s.dev.mgt.selection = some x ∧
      reached (after x.since 30000) s.dev.now = true) :=
  ⟨fun _ _ h => asking_serves h rfl rfl (Nat.le_refl 2), by decide, by decide,
    ⟨{ selection := some ⟨8, 0, 0, 0⟩ }, rfl, _, rfl, by decide⟩, ⟨{}, rfl, rfl⟩, ⟨{ selection := some ⟨7, 0, 0, 0⟩ }, rfl, _, rfl, rfl⟩,
    asking_serves rfl rfl rfl (by decide),
    ⟨{ dev := { now := 30000, mgt := { selection := some ⟨7, 4, 1, 0⟩ } } }, _, rfl, rfl, by decide⟩⟩

/-! ## Operate targets -/

/-- An OPERATE of each target on objects 0 to 33 is served on a device with no request in service. -/
theorem test_hyps_operates (d : Dev) (free : d.mgt.service = none) (quiet : d.work = []) :
    ∀ target ≤ 12, ∀ n ≤ 33, (operating d target n).operates (opReq target n) [] target n := by
  have h : ∀ target ≤ 12, ∀ n ≤ 33, (opReq target n).row = (10, target) ∧ (opReq target n).object = n := by decide +kernel
  exact fun target ht n hn => operating_operates free quiet (h target ht n hn).1 (h target ht n hn).2

/-- An object 3; the mode in force; a breaker with a record, a running scheme, an overlap record and, into SERVICE, a set ON_BUS;
a change from TEST to SERVICE, from SERVICE with CHG INHIBITED, and from IN_SERVICE to TEST with nothing in the way. -/
theorem test_hyps_ModeChanges :
    (devBreaker { record := some record0 }).mode = .service ∧ ((devBreaker { record := some record0 }).breaker 0).record.isSome = true ∧
    (devTransfer (transfer {} .timing)).chg.state = .running ∧
    ({ dev0 with chg := { overlap := some overlap0 } } : Dev).chg.overlap.isSome = true ∧
    ((devGen { state := .onBus }).gen 0).state ≠ .stopped ∧ ((devGen { state := .onBus }).gen 0).state ≠ .failed ∧
    (∀ d ∈ [{ dev0 with mode := .test, chg := { state := .idle } }, { dev0 with chg := { state := .inhibited } },
        { dev0 with mode := .inService, chg := { state := .idle } }],
      (∀ b, (d.breaker b).record = none) ∧ d.chg.state ≠ .running ∧ d.chg.overlap = none ∧ d.chg.inhibit = false ∧
        (∀ g, (d.gen g).state = .stopped) ∧ d.work = [] ∧ d.mgt.service = none) := by decide +kernel

theorem test_hyps_MaintenanceAndRestart :
    ∃ (s : State) (q : Request) (rest : List Request), s.operates q rest 3 0 ∧ s.dev.portIdle q.port :=
  ⟨operating dev0 3 0, opReq 3 0, [], operating_operates rfl rfl rfl rfl, ⟨rfl, nofun⟩, rfl, rfl, rfl, nofun, fun _ => ⟨.inl rfl, rfl⟩⟩

/-- Breaker 0 OPEN, charged and remote between a LIVE and a DEAD bus. -/
def devClose (r : BreakerRec) : Dev :=
  { devBusy with swm := { breakers := tset (Vector.replicate 24 {}) 0 r, buses := tset (Vector.replicate 6 { state := .dead }) 0 { state := .live } } }

theorem test_hyps_BreakerOperated :
    ∀ claim ∈ [none, some Holder.mgt],
      let d := devClose { reported := .openPos, spring := true, inLocal := false, claim := claim }
      (d.breakerCfg 0).used = true ∧ (d.breaker 0).record = none ∧ ((d.breaker 0).claim = none ∨ (d.breaker 0).claim = some .mgt) ∧
        d.locked 0 = false ∧ (d.breaker 0).inLocal = false ∧ (d.breaker 0).spring = true ∧ d.position 0 = .openPos ∧
        d.permissive 0 = true ∧ d.sides 0 = (.live, .dead) ∧ d.lnk.p1.up = true ∧ d.lnk.p1.tx.isSome = true ∧
        d.work = [] ∧ d.mgt.service = none := by decide

/-- No breaker 24, an unused breaker, another block's claim, an active record, and each reason against a CLOSE of a breaker that
nothing waits for; sides both LIVE and not known. -/
theorem test_hyps_BreakerOperateRefused :
    (dev0.breakerCfg 23).used = false ∧ (dev0.breakerCfg 0).used = true ∧
    ((devBreaker { claim := some .chg }).breaker 0).claim = some .chg ∧ Holder.chg ≠ .mgt ∧
    (∀ claim ∈ [none, some Holder.mgt], ((devBreaker { claim := claim, record := some record0 }).breaker 0).claim = claim ∧
      ((devBreaker { claim := claim, record := some record0 }).breaker 0).record.isSome = true) ∧
    (let d := devBreaker {};
      (d.breaker 0).claim = none ∧ (d.breaker 0).record = none ∧ (d.breaker 0).inLocal = true ∧ (d.breaker 0).spring = false ∧
        d.position 0 ≠ .openPos ∧ (d.sides 0).1 = .indeterminate ∧ (d.sides 0).2 = .indeterminate) ∧
    (devScreen 2 0).locked 0 = true ∧ (devScreen 4 0).permissive 0 = false ∧ (devScreen 5 0).sides 0 = (.live, .live) := by
  decide +kernel

theorem test_hyps_BreakerOperateRefused_unawaited (r : BreakerRec) (h : r.releasePending = false) : (devBreaker r).unawaited 0 :=
  have running : (devBreaker r).running = none := rfl
  have gens : ∀ g, ((devBreaker {}).gen g).wantClaim = false := by decide
  ⟨h, fun _ e => (nomatch running.symm.trans e), fun g _ => gens g⟩

/-- Breaker 23 locked out and bus 5 blocked, with element 0 that would set them again operated or not. -/
def devFlags (operated : Bool) : Dev :=
  { dev0 with tab := { breakers := tset (Vector.replicate 24 {}) 23 { addr := 1, lockout := 1 }
                       buses := tset (Vector.replicate 6 {}) 5 { block := 1 }
                       groups := tset (Vector.replicate 24 {}) 0 { bus := 5 }
                       elements := tset (Vector.replicate 32 {}) 0 { enable := 1, kind := 4, lockout := 1, block := 1, tripCount := 1
                                                                     trip := #v[23, 255, 255, 255] } },
              prot := { elements := tset (Vector.replicate 32 {}) 0 { operated := operated } } }

theorem test_hyps_FlagsReset :
    (let d := devFlags true;
      (d.element 0).operated = true ∧ (d.elementCfg 0).lockout = 1 ∧ 23 ∈ (d.elementCfg 0).tripIds ∧ (d.elementCfg 0).block = 1 ∧
        5 ∈ d.blockBuses 0) ∧
    (let d := devFlags false;
      (∀ e, (d.element e).operated = false) ∧ (d.breakerCfg 23).lockout ≠ 0 ∧ (d.busCfg 5).block ≠ 0 ∧
        (d.breakerCfg 0).lockout = 0 ∧ (d.busCfg 0).block = 0) := by decide

/-- CHG not FAILED, FAILED, running and not running, on objects 0 and 1. -/
theorem test_hyps_ChangeoverInhibitAndReset :
    ∀ target ∈ [9, 10, 11], ∀ c ∈ [ChgState.idle, .failed, .running, .inhibited],
      let s := operating { dev0 with chg := { state := c } } target 0;
      s.dev.chg.state = c ∧ s.power = .running ∧ s.dev.mgt.service = none ∧ s.dev.mgt.queue = [opReq target 0] ∧
        (opReq target 0).row = (10, target) ∧ (opReq target 0).object = 0 ∧ (opReq target 1).object = 1 := by decide

/-- CHG in each of its states, and schemes whose first step is an OPEN, a CLOSE_SYNC, a DELAY, a GEN_START and an END. -/
theorem test_hyps_RunSchemeStarts :
    (∀ c ∈ [ChgState.settling, .idle, .running, .failed, .inhibited], ({ dev0 with chg := { state := c } } : Dev).chg.state = c) ∧
    (∀ k ∈ [0, 3, 5, 6, 8],
      let d : Dev := { dev0 with chg := { state := .idle },
                                 tab := { tables with schemes := tset (Vector.replicate 8 {}) 7 (transfer { kind := k, time := 9 } .timing).entry } };
      d.chg.state = .idle ∧ d.chg.pending = [] ∧ (tget (tget d.tab.schemes 7).steps 0).kind = k ∧ d.work = [] ∧
        d.mgt.service = none) := by decide

/-- A used set: not failed; failed with its engine running; failed with its engine stopped. -/
theorem test_hyps_GeneratorReset :
    (dev0.genCfg 5).used = false ∧ (dev0.genCfg 0).used = true ∧ ((devGen {}).gen 0).state ≠ .failed ∧
    (∀ e ∈ [Engine.running, .stopped], ((devGen { state := .failed, engine := e }).gen 0).state = .failed ∧
      ((devGen { state := .failed, engine := e }).gen 0).engine = e) := by decide

/-! ## Errors and capture -/

theorem test_hyps_ErrorsAndUnknownRequests :
    (∀ flag : Byte, (asking dev0 (req 12 [flag])).serves (req 12 [flag]) [] (12, 0)) ∧
    (field [(2 : Byte)] 0 1 = 2 ∧ field [(0 : Byte)] 0 1 = 0 ∧ field [(1 : Byte)] 0 1 = 1) ∧
    (asking dev0 (req 19 [])).serves (req 19 []) [] (0, 0) ∧ (asking dev0 (req 10 [13, 0])).serves (req 10 [13, 0]) [] (0, 0) :=
  ⟨fun _ => asking_serves rfl rfl rfl (Nat.le_refl 1), by decide, asking_serves rfl rfl rfl (by decide),
    asking_serves rfl rfl rfl (by decide)⟩

/-- A record in area 3 with generation 1: one channel and one row-set. -/
def capture0 (recording locked : Bool) : CapRecord :=
  { area := 3, gen := 1, recording := recording, firstInst := 0, firstMs := 0, triggers := [], start := 0, length := 1, pre := 0
    post := 1, channels := [5], locked := locked }

/-- A device with this record. -/
def devCap (recording locked : Bool) (c : CapState) : Dev :=
  { dev0 with cap := { records := [capture0 recording locked], state := c } }

/-- CAPTURE_READ of the record: of its last sample, of one too many, and of no such generation; CAPTURE_LOCK and
CAPTURE_UNLOCK. -/
theorem test_hyps_CaptureReadAndLock :
    (∀ (d : Dev) (code : Nat) (gen count : Byte), code = 14 ∨ code = 16 ∨ code = 17 → d.mgt.service = none → d.work = [] →
      (asking d (req code [3, 0, gen, 0, 0, 7, 0, count])).serves (req code [3, 0, gen, 0, 0, 7, 0, count]) [] (code, 0)) ∧
    (∀ recording : Bool, (devCap recording false .armed).cap.find 3 1 = some (capture0 recording false)) ∧
    (∀ r ∈ (devCap false false .armed).cap.records, ¬ (r.area.val = 3 ∧ r.gen.toNat = 2)) ∧
    (0 < (capture0 false false).channels.length ∧ 7 + 1 ≤ 8 * (capture0 false false).length ∧
      8 * (capture0 false false).length < 7 + 2) := by
  refine ⟨?_, by decide, by decide, by decide⟩
  intro d code gen count h f w
  rcases h with rfl | rfl | rfl <;> exact asking_serves f w rfl (Nat.le_add_left _ _)

theorem test_hyps_CaptureDeleted :
    (∀ (d : Dev) (gen : Byte), d.mgt.service = none → d.work = [] →
      (asking d (req 15 [3, 0, gen])).serves (req 15 [3, 0, gen]) [] (15, 0)) ∧
    (∀ x ∈ [(true, false), (false, true), (false, false)], ∀ c ∈ [CapState.armed, .stalled],
      (devCap x.1 x.2 c).cap.find 3 1 = some (capture0 x.1 x.2) ∧ (devCap x.1 x.2 c).cap.state = c) ∧
    (∀ r ∈ (devCap false false .armed).cap.records, ¬ (r.area.val = 3 ∧ r.gen.toNat = 2)) :=
  ⟨fun _ _ f w => asking_serves f w rfl (Nat.le_refl 3), by decide, by decide⟩

/-- A record in POST with a number of triggers. -/
def capturePost (n : Nat) : CapRecord :=
  { capture0 true false with triggers := List.replicate n { kind := .manual, subject := 7, inst := 0, ms := 0, offset := 0 } }

theorem test_hyps_CaptureTriggered :
    (asking dev0 (req 18 [])).serves (req 18 []) [] (18, 0) ∧ dev0.tab.capture.manual = 0 ∧
    (let d : Dev := { dev0 with tab := { capture := { manual := 1, count := 16 } }, cap := { state := .armed } };
      d.tab.capture.manual ≠ 0 ∧ d.cap.state = .armed ∧ (∀ r ∈ d.cap.records, r.recording = false)) ∧
    (∀ n ∈ [3, 4],
      let d : Dev := { dev0 with tab := { capture := { manual := 1, count := 16 } }, cap := { state := .post, records := [capturePost n] } };
      d.tab.capture.manual ≠ 0 ∧ d.cap.state = .post ∧ capturePost n ∈ d.cap.records ∧ (capturePost n).recording = true ∧
        (∀ x ∈ d.cap.records, x.recording = true → x = capturePost n) ∧ (capturePost n).triggers.length = n) :=
  ⟨asking_serves rfl rfl rfl (by decide), rfl, by decide, by decide⟩

/-- A memory with two words; a slot of one channel whose sample is INVALID, and of one whose sample is GOOD. -/
theorem test_hyps_CaptureMemoryReadsBack :
    Memory.wf [(0, 1), (131071, 5)] = true ∧ ([5, 95] : List Nat)[(1 : Fin 2)] = (95 : Fin 96).val ∧
      (tget (Vector.replicate 96 ({} : Sample)) 95).quality = .invalid := by decide

/-! ## Arithmetic, measurement, protection, buses and sharing -/

theorem test_hyps_ArithmeticAsStated :
    (∃ a b : Int, b ≠ 0 ∧ ((a < 0) ≠ (b < 0))) ∧ (∃ a b : Int, b ≠ 0 ∧ ((a < 0) = (b < 0))) ∧ (∃ d : Nat, 0 < d) ∧
      (2 ^ 64 - 1 < 2 ^ 64) :=
  ⟨⟨-7, 2, by decide⟩, ⟨-7, -2, by decide⟩, ⟨1, by decide⟩, by decide⟩

/-- A device whose quantities 0 to 5, the roles of group 0, are fed by a stream in service, with windows of one quality. -/
def devMeasured (q : Quality) (enable : Nat) : Dev :=
  { tab := { streams := tset (Vector.replicate 24 {}) 0
               { enable := enable, source := 1, count := 6, slots := #v[(0, 0), (1, 1), (2, 2), (3, 3), (4, 4), (5, 5), (0, 0), (0, 0)] }
             groups := tset (Vector.replicate 24 {}) 0 { phaseV := #v[0, 1, 2], phaseI := #v[3, 4, 5], nominal := 1000 } }
    sau := { streams := tset (Vector.replicate 24 {}) 0 { state := .locked } }
    meas := { quantities := Vector.replicate 96 { window := Vector.replicate 80 { quality := q } } } }

theorem test_hyps_InstantResults :
    (devMeasured .good 0).computed 0 = false ∧
    (∀ q ∈ [Quality.invalid, .held, .questionable, .good],
      (devMeasured q 1).computed 0 = true ∧ ∀ i, (tget ((devMeasured q 1).quantity 0).window i).quality = q) ∧
    ((devMeasured .good 1).groupCfg 0).voltages = some (0, 1, 2) ∧ ((devMeasured .good 1).groupCfg 0).currents = some (3, 4, 5) ∧
    ((devMeasured .good 1).measure.quantity 0).m2 < 2 ^ 64 := by decide +kernel

/-- The qualities of the six quantities that power uses: INVALID, HELD and GOOD. -/
theorem test_hyps_InstantResults_power :
    ∀ q ∈ [Quality.invalid, .held, .good], ∀ k ∈ [(0 : Fin 96), 1, 2, 3, 4, 5],
      ((devMeasured q 1).measure.quantity k).quality = q := by decide +kernel

/-- Element 0 with every flag, a used breaker in its trip set, a bus to block and a source; and one with no flag. -/
theorem test_hyps_OperatedElementActs :
    (let d : Dev := { dev0 with tab := { tables with
        elements := tset (Vector.replicate 32 {}) 0 { enable := 1, kind := 4, tripCount := 1, trip := #v[0, 255, 255, 255], lockout := 1,
                                                      block := 1, monitor := 1, capture := 1 }
        groups := tset (Vector.replicate 24 {}) 0 { bus := 5 } } };
      0 ∈ (d.elementCfg 0).tripIds ∧ 1 ∉ (d.elementCfg 0).tripIds ∧ (d.breakerCfg 0).used = true ∧ (d.elementCfg 0).lockout = 1 ∧
        (d.elementCfg 0).block = 1 ∧ 5 ∈ d.blockBuses 0 ∧ (d.elementCfg 0).capture = 1 ∧ (d.elementCfg 0).target = some .a) ∧
    (dev0.elementCfg 0).lockout ≠ 1 ∧ (dev0.elementCfg 0).block ≠ 1 ∧ (dev0.elementCfg 0).capture ≠ 1 := by decide

/-- No breaker of that device has a record. -/
theorem test_hyps_OperatedElementActs_opens (t : Tables) (b : Fin 24) : (({ dev0 with tab := t } : Dev).breaker b).protOpens :=
  noRecord_protOpens (d := dev0) (by decide) b

/-- Element 0 of a kind and state, on group 0 of `devMeasured`, with its quantities of a quality. -/
def devElement (kind : Nat) (q : Quality) (r : ElementRec) : Dev :=
  let d := (devMeasured q 1).measure
  { d with tab := { d.tab with elements := tset (Vector.replicate 32 {}) 0 { enable := 1, kind := kind, pickup := 1000, maintPickup := 500 } }
           prot := { elements := tset (Vector.replicate 32 {}) 0 r, maintFlag := true } }

/-- Disabled and enabled, forced and not, picked up and not, with its inputs there and not; inverse-time and not, with the
maintenance pickup in force and not. -/
theorem test_hyps_OperatedElementActs_instant :
    (dev0.elementCfg 0).enable = 0 ∧
    (∀ r ∈ [({} : ElementRec), { picked := true }, { forced := .operated }], ∀ k ∈ [0, 1, 2],
      ((devElement k .good r).elementCfg 0).enable ≠ 0 ∧ ((devElement k .good r).elementCfg 0).kind = k ∧
        (devElement k .good r).element 0 = r ∧ (devElement k .good r).prot.maintFlag = true) ∧
    (devElement 0 .good {}).elementCurrents ((devElement 0 .good {}).elementCfg 0) = some (3, 4, 5) := by decide +kernel

theorem test_hyps_OperatedElementActs_inputs :
    (devElement 1 .good {}).inputsHold ((devElement 1 .good {}).elementCfg 0) ∧
    ¬ (devElement 1 .invalid {}).inputsHold ((devElement 1 .invalid {}).elementCfg 0) ∧
    (devElement 1 .good {}).maintenance ((devElement 1 .good {}).elementCfg 0) ∧
    ¬ (devElement 0 .good {}).maintenance ((devElement 0 .good {}).elementCfg 0) := by
  refine ⟨⟨(3, 4, 5), by decide +kernel, by decide +kernel⟩, ?_, ⟨.inr rfl, by decide +kernel⟩, fun h => absurd h.2 (by decide +kernel)⟩
  intro h
  obtain ⟨x, e, h⟩ := h
  have e' : x = (3, 4, 5) := Option.some.inj (e.symm.trans (by decide +kernel))
  subst e'
  exact absurd h (by decide +kernel)

/-- Zone 0 with group 0 of `devMeasured`, on bus 5, as its one member, with a polarity; element 0 is DIFF on it and blocks buses. -/
def devZone (polarity : Nat) : Dev :=
  let d := devElement 3 .good {}
  { d with tab := { d.tab with
      elements := tset d.tab.elements 0 { enable := 1, kind := 3, pickup := 1000, slope := 10, block := 1 }
      groups := tset d.tab.groups 0 { tget d.tab.groups 0 with bus := 5 }
      zones := tset d.tab.zones 0 { count := 1, members := tset (Vector.replicate 10 {}) 0 { breaker := 255, polarity := polarity } } } }

/-- A DIFF element whose zone holds valid inputs, and one whose zone fails the checks of R78. -/
theorem test_hyps_OperatedElementActs_zone :
    (devZone 1).inputsHold ((devZone 1).elementCfg 0) ∧ ¬ (devZone 2).inputsHold ((devZone 2).elementCfg 0) := by
  have k : ((devZone 1).elementCfg 0).kind = 3 := by decide +kernel
  have k' : ((devZone 2).elementCfg 0).kind = 3 := by decide +kernel
  have v : (devZone 1).threeValid ((devZone 1).memberCurrents (tget ((devZone 1).elementZone ((devZone 1).elementCfg 0)).members 0)) :=
    ⟨(3, 4, 5), by decide +kernel, by decide +kernel⟩
  constructor
  · unfold Dev.inputsHold
    rw [k]
    refine ⟨((devZone 1).zoneEntryOk_iff _).1 (by decide +kernel), by decide +kernel, fun i h => ?_⟩
    have c : ((devZone 1).elementZone ((devZone 1).elementCfg 0)).count = 1 := by decide +kernel
    have i0 : i = 0 := Fin.ext (by rw [c] at h; exact Nat.lt_one_iff.1 h)
    subst i0
    exact ⟨fun n => absurd (by decide +kernel) n, fun _ => v⟩
  · unfold Dev.inputsHold
    rw [k']
    intro h
    exact absurd (((devZone 2).zoneEntryOk_iff _).2 h.1) (by decide +kernel)

/-- A stored zone that fails R78 is kept as stored at a reset, blocks its DIFF element, and still names the buses of R84 step 4. -/
theorem test_failing_zone_kept :
    (devZone 2).tab.failedAreas.contains 8 = true ∧ (devZone 2).tab.repaired.zones = (devZone 2).tab.zones ∧
    (devZone 2).zoneBlocked ((devZone 2).elementZone ((devZone 2).elementCfg 0)) = true ∧
    (devZone 1).zoneBlocked ((devZone 1).elementZone ((devZone 1).elementCfg 0)) = false ∧ (devZone 2).blockBuses 0 = [5] := by
  decide +kernel

/-- Roots of 15 (below the table), 16 (its first entry), 511 (its last) and 512. -/
theorem test_hyps_OperatedElementActs_index :
    ∀ k ∈ [15, 16, 511, 512], ∃ m2 p : Nat, 0 < p ∧ 128 * m2 < 2 ^ 64 ∧ k * k ≤ 128 * m2 / (p * p) ∧
      128 * m2 / (p * p) < (k + 1) * (k + 1) := by
  simp only [List.mem_cons, List.not_mem_nil, or_false, forall_eq_or_imp, forall_eq]
  exact ⟨⟨113, 8, by decide⟩, ⟨128, 8, by decide⟩, ⟨130561, 8, by decide⟩, ⟨131072, 8, by decide⟩⟩

/-- Bus 0 has a group with the quantity 0 for its phase A, bus 1 has none; set 0's breaker 3 has the group 2 with the quantity 0. -/
theorem test_hyps_InvalidationOfBuses :
    (let d : Dev := { tab := { tables with
        groups := tset (tset (Vector.replicate 24 {}) 0 { phaseV := #v[0, 1, 2], nominal := 1 }) 2 { phaseV := #v[3, 4, 0], nominal := 1 }
        buses := tset (Vector.replicate 6 {}) 0 { group := 0 } } };
      d.busGroup 0 = some 0 ∧ (d.groupCfg 0).voltages = some (0, 1, 2) ∧ d.busGroup 1 = none ∧ d.genSideGroup 3 = some 2 ∧
        (d.groupCfg 2).voltages = some (3, 4, 0) ∧ d.genSideGroup 0 = none) := by decide

/-- Bus 0 (thresholds 80 and 20) and the set of breaker 3, of kind GEN on bus 0, with the same voltages against a nominal of 1000. -/
def devVolts (rms : Nat) (q : Quality) : Dev :=
  { tab := { tables with
      groups := tset (Vector.replicate 24 {}) 2 { phaseV := #v[0, 1, 2], nominal := 1000 }
      breakers := tset tables.breakers 3 { addr := 0x203, kind := 3, side1 := 0 }
      buses := tset (Vector.replicate 6 {}) 0 { group := 2, live := 80, dead := 20 } }
    meas := { quantities := Vector.replicate 96 { rms := rms, quality := q } } }

/-- LIVE at the live threshold, DEAD at the dead one, INDETERMINATE between them and without valid voltages; a breaker of kind GEN
that one set names, and another breaker. -/
theorem test_hyps_InvalidationOfBuses_judged :
    (∀ x ∈ [(800, Quality.good, BusState.live), (799, .held, .indeterminate), (201, .good, .indeterminate), (200, .held, .dead), (200, .questionable, .indeterminate),
        (800, .invalid, .indeterminate)],
      let d := (devVolts x.1 x.2.1).evaluateBuses;
      (d.bus 0).state = x.2.2 ∧ (d.breaker 3).genSide = x.2.2) ∧
    (let d := devVolts 800 .good;
      (d.breakerCfg 3).isGen = true ∧ (d.breakerCfg 3).bus1 = some 0 ∧ (d.genCfg 0).used = true ∧ (d.genCfg 0).breaker = (3 : Fin 24).val ∧
        (∀ k, (d.genCfg k).used = true → (d.genCfg k).breaker = (3 : Fin 24).val → k = 0) ∧ (d.breakerCfg 0).isGen = false) := by
  decide +kernel

/-- A queue with a frame for set 0, a busy P1 and an idle one. -/
theorem test_hyps_SetpointQueueOrder :
    (([(0, ownFrame)] : List (Fin 6 × OutFrame)).map Prod.fst).Nodup ∧ (∀ x ∈ ([(0, ownFrame)] : List (Fin 6 × OutFrame)), x.1 ≠ 5) ∧
    ([(0, ownFrame)] : List (Fin 6 × OutFrame)) = [] ++ [(0, ownFrame)] ++ [] ∧ devBusy.portBusy .p1 ∧ dev0.portIdle .p1 :=
  ⟨by decide, by decide, rfl, busy_p1, idle_p1⟩

/-- Two sets of 2000 kW ON_BUS, with powers, and a generator bus with a frequency deviation. -/
def devShare (p0 p1 df : Int) : Dev :=
  { tab := { gens := tset (tset (Vector.replicate 6 {}) 0 { addr := 1, breaker := 0, group := 0, rating := 2000, rank := 1 })
                       1 { addr := 2, breaker := 1, group := 1, rating := 2000, rank := 2 }
             breakers := tset (tset (Vector.replicate 24 {}) 0 { addr := 3, kind := 3, side1 := 0 }) 1 { addr := 4, kind := 3, side1 := 0 }
             buses := tset (Vector.replicate 6 {}) 0 { group := 2 } }
    par := { gens := tset (tset (Vector.replicate 6 {}) 0 { state := .onBus }) 1 { state := .onBus } }
    meas := { groups := tset (tset (tset (Vector.replicate 24 {}) 0 { p := p0, powerQ := .good }) 1 { p := p1, powerQ := .good })
                          2 { df := df, dfQ := .good } } }

/-- Set 0 is ON_BUS with a valid power on an islanded bus, on a bus that is a source's own, and is not ON_BUS. -/
theorem test_hyps_ReactiveSharing :
    (let d := devShare 300 0 0;
      d.genBusIslanded = true ∧ (d.gen 0).state = .onBus ∧ (d.genPower 0).2.2 = true ∧ d.ratingInUse 0 = 2000) ∧
    (let d := devShare 300 0 0;
      ({ d with tab := { d.tab with sources := tset (Vector.replicate 2 {}) 0 { bus := 0 } } } : Dev).genBusIslanded = false) ∧
    ((devGen {}).gen 0).state ≠ .onBus := by decide

/-- Set 0 of `devShare` with a state, a power and a frequency deviation, islanded, with the synchroniser free or serving an adjusting
bus request; its breaker in a position with a claim. -/
def devLoad (r : GenRec) (p df : Int) (adjust : Bool) (pos : Position) (claim : Option Holder) : Dev :=
  let x := devShare p 0 df
  { x with
    mode := .inService
    lnk := devBusy.lnk
    swm := { breakers := Vector.replicate 24 { reported := pos, claim := claim } }
    par := { x.par with
      gens := tset x.par.gens 0 r
      islanded := true
      sync := { served := if adjust then some (.bus { breaker := 0, refGroup := none, inGroup := none, adjust := true }) else none } } }

/-- UNLOAD_HELD; UNLOADING above 5 % of the rating and at it; ON_BUS without valid power; with the frequency term and without. -/
theorem test_hyps_ReactiveSharing_unloading :
    (∀ b : Bool, ∀ x ∈ [GenState.unloadHeld, .unloading, .onBus], ∀ p ∈ [(100 : Int), 101],
      let d := devLoad { state := x, load := 500 } p (-40) b .closed (some .par);
      (d.gen 0).state = x ∧ (d.genPower 0) = (p, 0, true) ∧ d.ratingInUse 0 = 2000 ∧ d.genBusIslanded = true ∧
        (d.deviation (d.genBus.bind d.busGroup)) = (-40, true) ∧ d.genBreaker 0 = some 0) ∧
    20 * (100 : Int) ≤ (2000 : Nat) ∧ ¬ 20 * (101 : Int) ≤ (2000 : Nat) ∧
    (let d : Dev := { devLoad { state := .onBus } 0 0 false .closed none with meas := {} };
      (d.gen 0).state = .onBus ∧ (d.genPower 0).2.2 = false ∧ d.genBusIslanded = true ∧
        (d.deviation (d.genBus.bind d.busGroup)).2 = false) := by decide +kernel

/-- A set to open or to fail: PAR's breaker CLOSED, TRAVELLING, and OPEN. -/
theorem test_hyps_ReactiveSharing_failing :
    (∀ p ∈ [Position.closed, .travelling, .openPos], ∀ x ∈ [GenState.unloading, .onBus],
      let d := devLoad { state := x, load := 500 } 100 0 false p (some .par);
      (d.gen 0).state ≠ .failed ∧ d.mgt.errors.length < 15 ∧ d.genBreaker 0 = some 0 ∧ d.position 0 = p ∧
        (d.breaker 0).claim = some .par ∧ (d.breaker 0).record = none ∧ d.lnk.p1.up = true ∧ d.lnk.p1.tx.isSome = true) ∧
    (devLoad { state := .onBus } 100 0 false .closed (some .par)).takesOpen 0 :=
  ⟨by decide +kernel, rfl, rfl, nofun, .inr rfl, rfl⟩

/-! ## Worked examples of spec/ -/

/-- spec/03, one current phasor: M2 199,996,164 gives RMS 9,999. -/
theorem test_rms_of_one_current : ({ re := 14142, im := 0 } : Phasor).m2 = 199996164 ∧ rmsOf 199996164 = 9999 := by decide +kernel

/-- The first quarter of 80 samples of a cosine of 14,142 counts peak, each rounded. -/
def quarter : List Int := [14142, 14098, 13968, 13751, 13450, 13066, 12601, 12058, 11441, 10754, 10000] ++
  [9184, 8312, 7389, 6420, 5412, 4370, 3301, 2212, 1110, 0]

/-- spec/03, one current phasor: these samples give the phasor (14,142, 0). -/
theorem test_phasor_of_one_current :
    windowPhasor (quarter ++ (quarter.take 20).reverse.map (- ·) ++ (quarter.drop 1).map (- ·) ++ (quarter.drop 1).reverse.drop 1)
      = { re := 14142, im := 0 } := by decide +kernel

/-- spec/03, R45: apart from the two clamped entries, C_(80-k) is C_k and S_(80-k) is -S_k, and the two tables have 80 entries. -/
theorem test_coefficients : cosTab.length = 80 ∧ sinTab.length = 80 ∧ sinTab[60]? = some (-32768) ∧ cosTab[0]? = some 32767 ∧
    (cosTab.drop 1).reverse = cosTab.drop 1 := by decide

/-- spec/03, three-phase power: three phases of 898,000 by 14,142 counts give 1,905 kW. -/
theorem test_power_of_incomer :
    roundDiv (3 * realProduct { re := 898000, im := 0 } { re := 14142, im := 0 }) 20000000 = 1905 := by decide

/-- spec/03, frequency deviation at one instant: 500 mHz. -/
theorem test_frequency_at_one_instant :
    instantFrequency (Config.kFrequency false) { re := 10000, im := 0 } { re := -157, im := 9999 } = some 500 := by decide

/-- spec/03, averaging and holding: instants n to n + 5. -/
theorem test_averaging_and_holding :
    let g : GroupRec := { hist := [some (500, .good), some (500, .good), some (480, .good)], missing := 0 };
    let r := g.takeOutcome (some (500, .good));
    let r1 := r.takeOutcome none;
    let r5 := (((r1.takeOutcome (some (492, .good))).takeOutcome (some (496, .good))).takeOutcome (some (504, .good)));
    (r.df = 495 ∧ r.dfQ = .good) ∧ (r1.df = 495 ∧ r1.dfQ = .held ∧ r1.missing = 1) ∧ (r5.df = 495 ∧ r5.dfQ = .held) ∧
      (r5.takeOutcome (some (500, .good))).df = 498 := by decide

/-- spec/03, two vector tests: small phasors in a window of 10 degrees, large ones in windows of 10 and of 5. -/
theorem test_vector_windows :
    vectorWindow { re := 20000, im := 0 } { re := 19700, im := 2000 } .good .good 2038 = .inside ∧
    vectorWindow { re := 600000, im := 0 } { re := 590000, im := 60000 } .good .good 2038 = .inside ∧
    vectorWindow { re := 600000, im := 0 } { re := 590000, im := 60000 } .good .good 502 = .outside := by decide

/-- spec/03, inverse-time index: five times the pickup, a hair under, gives 17. -/
theorem test_inverse_index : inverseIndex 19999899241 20000 = 17 ∧ inverseIndex 0 20000 = 0 ∧ inverseIndex (2 ^ 49) 1 = 47 := by
  decide +kernel

/-- A group with a power and a frequency deviation. -/
def devGroup (p df : Int) : Dev :=
  { tab := { groups := tset (Vector.replicate 24 {}) 0 { bus := 0 } }, meas := { groups := tset (Vector.replicate 24 {}) 0 { p := p, df := df } } }

/-- spec/04, R73: with a pickup of 150 kW an element picks up at -150 and drops out above -142. -/
theorem test_reverse_power :
    let c : ElementEntry := { enable := 1, kind := 8, pickup := 150 };
    ((devGroup (-150) 0).assess c).pick = true ∧ ((devGroup (-149) 0).assess c).pick = false ∧
      ((devGroup (-142) 0).assess c).drop = false ∧ ((devGroup (-141) 0).assess c).drop = true := by decide

/-- spec/04, R72: a UF element of -1000 picks up at 49.000 Hz and drops out above 49.020 Hz. -/
theorem test_under_frequency :
    let c : ElementEntry := { enable := 1, kind := 6, pickup := -1000 };
    ((devGroup 0 (-1000)).assess c).pick = true ∧ ((devGroup 0 (-980)).assess c).drop = false ∧
      ((devGroup 0 (-979)).assess c).drop = true := by decide

/-- spec/07, islanded sharing, the first period. -/
theorem test_islanded_sharing :
    let d := (devShare 1300 900 (-40)).shareIslanded;
    (d.gen 0).load = 1100 ∧ (d.gen 1).load = 1100 ∧ (d.gen 0).speed = 10 ∧ (d.gen 1).speed = 30 := by decide

end Sys2Proof.Tests
end

/-!
The arithmetic of R1: what truncated division, rounding, the bitwise square root and
the saturating counters answer, and O55 from it.
-/
namespace Sys2Proof.Machine

/-! ## Truncated division -/

theorem natAbs_truncDiv (a b : Int) : (truncDiv a b).natAbs = a.natAbs / b.natAbs :=
  Int.natAbs_tdiv a b

/-- `Int.tdiv` carries the sign outside. -/
theorem truncDiv_neg (a b : Int) : truncDiv a (-b) = -truncDiv a b := Int.tdiv_neg a b

theorem neg_truncDiv (a b : Int) : truncDiv (-a) b = -truncDiv a b := Int.neg_tdiv a b

theorem truncDiv_nonneg {a b : Int} (ha : 0 ≤ a) (hb : 0 ≤ b) : 0 ≤ truncDiv a b := Int.tdiv_nonneg ha hb

theorem truncDiv_nonneg_of_sign_eq {a b : Int} (h : (a < 0) = (b < 0)) : 0 ≤ truncDiv a b := by
  by_cases ha : a < 0
  · have hb : b < 0 := h ▸ ha
    have := truncDiv_nonneg (Int.neg_nonneg_of_nonpos ha.le) (Int.neg_nonneg_of_nonpos hb.le)
    rwa [truncDiv_neg, neg_truncDiv, neg_neg] at this
  · have hb : ¬ b < 0 := h ▸ ha
    exact truncDiv_nonneg (not_lt.mp ha) (not_lt.mp hb)

theorem truncDiv_nonpos_of_sign_ne {a b : Int} (h : (a < 0) ≠ (b < 0)) : truncDiv a b ≤ 0 := by
  rw [ne_eq, eq_iff_iff] at h
  by_cases ha : a < 0
  · have := truncDiv_nonneg (a := -a) (b := b) (by omega) (by omega)
    rw [neg_truncDiv] at this
    omega
  · have := truncDiv_nonneg (a := a) (b := -b) (by omega) (by omega)
    rw [truncDiv_neg] at this
    omega

/-! ## Rounding to the nearest -/

theorem roundDiv_natCast (n d : Nat) : roundDiv n d = ((2 * n + d) / (2 * d) : Nat) := by
  simp [roundDiv]

/-- Rounding is odd, so halves, which go up above zero, go away from zero below it too. -/
theorem roundDiv_neg (a : Int) (d : Nat) : roundDiv (-a) d = -roundDiv a d := by
  have zero : d / (2 * d) = 0 := by
    rcases Nat.eq_zero_or_pos d with rfl | hd
    · rfl
    · exact Nat.div_eq_of_lt (by omega)
  obtain hneg | rfl | hpos := lt_trichotomy a 0
  · simp [roundDiv, hneg.le, not_le.mpr hneg]
  · simp [roundDiv, zero]
  · simp [roundDiv, hpos.le, not_le.mpr hpos]

/-- Above zero the remainder of the rounded quotient lies from minus half the divisor, included, to half of it, excluded. -/
theorem roundDiv_remainder_of_nonneg {a : Int} {d : Nat} (hd : 0 < d) (ha : 0 ≤ a) :
    -(d : Int) ≤ 2 * (a - roundDiv a d * d) ∧ 2 * (a - roundDiv a d * d) < d := by
  lift a to Nat using ha
  rw [roundDiv_natCast]
  set q := (2 * a + d) / (2 * d) with hq
  have low : q * d * 2 ≤ 2 * a + d := by
    calc q * d * 2 = q * (2 * d) := by ring
      _ ≤ 2 * a + d := Nat.div_mul_le_self _ _
  have high : 2 * a + d < q * d * 2 + 2 * d := by
    calc 2 * a + d < 2 * d * (q + 1) := Nat.lt_mul_div_succ _ (by omega)
      _ = q * d * 2 + 2 * d := by ring
  rw [← Nat.cast_mul]
  omega

theorem roundDiv_remainder_of_neg {a : Int} {d : Nat} (hd : 0 < d) (ha : a < 0) :
    -(d : Int) < 2 * (a - roundDiv a d * d) ∧ 2 * (a - roundDiv a d * d) ≤ d := by
  obtain ⟨low, high⟩ := roundDiv_remainder_of_nonneg hd (Int.neg_nonneg_of_nonpos ha.le)
  rw [roundDiv_neg, neg_mul] at low high
  omega

/-! ## Square roots -/

/-- The search keeps the root between `r` and `r + 2 ^ k`: each bit halves the gap, until it is 1. -/
theorem isqrtFrom_floor (n k r : Nat) (low : r * r ≤ n) (high : n < (r + 2 ^ k) * (r + 2 ^ k)) :
    isqrtFrom n k r * isqrtFrom n k r ≤ n ∧ n < (isqrtFrom n k r + 1) * (isqrtFrom n k r + 1) := by
  induction k generalizing r with
  | zero => exact ⟨low, high⟩
  | succ k ih =>
    rw [isqrtFrom]
    split
    next fits =>
      refine ih _ fits ?_
      rwa [add_assoc, ← mul_two, ← pow_succ]
    next tooLarge => exact ih r low (not_le.mp tooLarge)

theorem isqrt_floor {n : Nat} (h : n < 2 ^ 64) : isqrt n * isqrt n ≤ n ∧ n < (isqrt n + 1) * (isqrt n + 1) :=
  isqrtFrom_floor n 32 0 (Nat.zero_le n) (by omega)

/-! ## Counters -/

theorem sat32_of_lt {n : Nat} (h : n < 4294967295) : sat32 n = n + 1 := Nat.min_eq_left h

theorem sat32_of_ge {n : Nat} (h : 4294967295 ≤ n) : sat32 n = 4294967295 := Nat.min_eq_right (Nat.le_succ_of_le h)

theorem sat16_of_lt {n : Nat} (h : n < 65535) : sat16 n = n + 1 := Nat.min_eq_left h

theorem sat16_of_ge {n : Nat} (h : 65535 ≤ n) : sat16 n = 65535 := Nat.min_eq_right (Nat.le_succ_of_le h)

/-- Settles O55: each part of R1 by the lemmas of its operation. -/
theorem arithmeticAsStated : Obligations.ArithmeticAsStated :=
  ⟨fun a b _ => ⟨natAbs_truncDiv a b, truncDiv_nonpos_of_sign_ne, truncDiv_nonneg_of_sign_eq⟩,
   fun _ _ hd => ⟨roundDiv_remainder_of_nonneg hd, roundDiv_remainder_of_neg hd⟩,
   fun _ => isqrt_floor,
   fun _ => ⟨sat32_of_lt, sat32_of_ge, sat16_of_lt, sat16_of_ge⟩⟩

end Sys2Proof.Machine

/-!
Reset and bypass: the state after reset is sound (O6), what the beginning of a reset loses (O7), what a reset that
completes on sound tables takes (O8), and the joined ports with the two outputs (O10).
-/
namespace Sys2Proof.Machine

/-! ## The beginning of a reset -/

/-- Settles O6: the device after reset is a blank one, and the part runs. -/
theorem soundAtReset : Obligations.SoundAtReset := ⟨blank_sound {}, fun joined => absurd rfl joined⟩

theorem State.resetNLow_noSupply {s : State} (h : s.power = .noSupply) : s.resetNLow = { s with resetN := false } := by
  simp [State.resetNLow, h]

theorem State.resetNLow_supplied {s : State} (h : s.power ≠ .noSupply) :
    s.resetNLow = ({ s with resetN := false } : State).lose .inReset := by
  simp [State.resetNLow, h]

theorem State.restart_due {s : State} (run : s.power = .running) (due : s.dev.mgt.restartDue = true) :
    s.restart = s.lose .inReset := by
  simp [State.restart, run, due]

theorem State.restart_notDue {s : State} (h : s.dev.mgt.restartDue = false) : s.restart = s := by simp [State.restart, h]

/-- Settles O7: each of the four beginnings is a `State.lose`, where it happens at all. -/
theorem resetLosesVolatileState : Obligations.ResetLosesVolatileState := fun _ =>
  ⟨rfl, rfl,
   fun supplied => congrArg Host.Outcome.next (State.resetNLow_supplied supplied),
   fun unsupplied => congrArg Host.Outcome.next (State.resetNLow_noSupply unsupplied),
   fun run due => congrArg Host.Outcome.next (State.restart_due run due),
   fun notDue => congrArg Host.Outcome.next (State.restart_notDue notDue)⟩

/-! ## A reset that completes on sound tables -/

theorem ok_of_failing_isEmpty {n : Nat} {ok : Fin n → Bool} (h : (failing n ok).isEmpty = true) (i : Fin n) : ok i = true := by
  have none := List.filter_eq_nil_iff.mp (List.isEmpty_iff.mp h) i (List.mem_finRange i)
  simpa using none

theorem repairTable_of_ok {α : Type} {n : Nat} (v : Vector α n) {ok : Fin n → Bool} (h : (failing n ok).isEmpty = true)
    (f : α → α) : repairTable v ok f = v := by
  apply Vector.ext
  intro i hi
  simp [repairTable, ok_of_failing_isEmpty h, tget]

/-- Sound stored tables are taken as stored, and every breaker entry passes its checks. -/
theorem Tables.repaired_of_sound {t : Tables} (h : t.failedAreas = []) : t.repaired = t ∧ ∀ b, t.breakerOk b = true := by
  have passed := List.filter_eq_nil_iff.mp (List.map_eq_nil_iff.mp h)
  simp only [List.forall_mem_cons, Bool.not_eq_true, Bool.not_eq_false', Bool.or_eq_false_iff] at passed
  obtain ⟨device, streams, kinds, groups, elements, zones, breakers, buses, sources, causes, schemes, ⟨gens, par⟩, capture, lock, -⟩ :=
    passed
  refine ⟨?_, ok_of_failing_isEmpty breakers⟩
  unfold Tables.repaired
  rw [repairTable_of_ok _ streams, repairTable_of_ok _ kinds, repairTable_of_ok _ groups, repairTable_of_ok _ elements,
    repairTable_of_ok _ breakers, repairTable_of_ok _ buses, repairTable_of_ok _ sources, repairTable_of_ok _ causes,
    repairTable_of_ok _ schemes, if_pos device, if_pos gens, if_pos par, if_pos capture, if_pos lock]

theorem startModeOf_sound (e : DeviceEntry) : startModeOf e false =
    if e.startMode = 0 then .inService else if e.startMode = 1 then .test else .service := by
  simp only [startModeOf, modeOf, Bool.false_eq_true, if_false]
  split <;> [rfl; split <;> [rfl; split <;> rfl]]

theorem swmAtReset_sound {t : Tables} (h : ∀ b, t.breakerOk b = true) : swmAtReset t = {} := by
  have same : Vector.ofFn (fun b => ({ failedCfg := !t.breakerOk b } : BreakerRec)) = Vector.replicate 24 {} := by
    apply Vector.ext
    intro i hi
    simp [h]
  simp only [swmAtReset, same]

theorem arm_empty_zero : Cap.arm {} 0 =
    { gens := Vector.ofFn (fun a => if a = 0 then 1 else 0), state := .armed, lastArmed := some 0 } := by decide

/-- Settles O8: with sound tables nothing is repaired and no error is recorded. -/
theorem cleanResetTakesStoredTables : Obligations.CleanResetTakesStoredTables := by
  intro s nomf mgw up1 up2 inReset sound
  obtain ⟨taken, breakers⟩ := Tables.repaired_of_sound sound
  show Host.Outcome.next (s.complete nomf mgw up1 up2) = _
  rw [State.complete, if_pos inReset, Dev.boot, sound, forEach_nil, Dev.booted, taken, sound]
  simp only [List.isEmpty_nil, Bool.not_true, startModeOf_sound, swmAtReset_sound breakers, capAtReset, arm_empty_zero]
  rfl

/-! ## Bypass and the outputs -/

theorem State.tripOut_iff {s : State} (run : s.power = .running) :
    s.tripOut = true ↔ s.dev.mode = .inService ∧ ∃ e, (s.dev.element e).operated = true := by
  simp [State.tripOut, run, Dev.anyOperated]

/-- The MAJOR errors of R214. -/
theorem ErrorCode.major_iff (c : ErrorCode) : c.major = true ↔
    c ∈ [.streamsSilent, .bfOperated, .overlapExceeded, .schemeFailed, .settingsInvalid, .storeFault] := by
  cases c <;> decide

theorem State.healthy_iff {s : State} (run : s.power = .running) :
    s.healthy = true ↔ s.dev.mode = .inService ∧ ∀ x ∈ s.dev.mgt.errors,
      x.code ∉ [.streamsSilent, .bfOperated, .overlapExceeded, .schemeFailed, .settingsInvalid, .storeFault] := by
  simp only [State.healthy, run, Dev.healthy, decide_true, Bool.true_and, Bool.and_eq_true, decide_eq_true_eq,
    Bool.not_eq_true', List.any_eq_false, ErrorCode.major_iff]

/-- Settles O10: joined ports carry a frame by `State.cross`, and the outputs are read from the mode, the elements and the errors. -/
theorem bypassCarriesFramesUnchanged : Obligations.BypassCarriesFramesUnchanged := by
  intro s p f m
  refine ⟨fun joined => ⟨if_neg joined, if_neg joined, ?_, ?_, ?_⟩,
    fun run => ⟨if_pos run, ?_, State.tripOut_iff run, State.healthy_iff run⟩⟩
  · simp [State.bypassed, joined]
  · simp [State.tripOut, joined]
  · simp [State.healthy, joined]
  · simp [State.bypassed, run]

end Sys2Proof.Machine

/-!
What running a port does, beyond Laws/Ports.lean: what it leaves alone in any case, what it comes to at a port that takes no
frame (it sends, or its link is DOWN) and at one that is free, and the forward queues, the setpoint queue and the immediate
replies in these terms (R2, R11, R14 to R18).
-/
namespace Sys2Proof.Machine

/-! ## What running a port leaves alone -/

/-- What neither a port's arbiter nor the filling of its response slot touches. -/
def Dev.besideRun (d : Dev) : Port → Dev
  | .p1 => { d with
      lnk := { d.lnk with
        p1 := { up := d.lnk.p1.up, lastOut := d.lnk.p1.lastOut, counters := { d.lnk.p1.counters with txDiscarded := 0 } }
        protQueue := [], ctrlQueue := [], setpoints := [], fq21 := [] }
      mgt := { d.mgt with service := none, restartDue := false } }
  | .p2 => { d with
      lnk := { d.lnk with
        p2 := { up := d.lnk.p2.up, lastOut := d.lnk.p2.lastOut, counters := { d.lnk.p2.counters with txDiscarded := 0 } }
        fq12 := [] }
      mgt := { d.mgt with service := none, restartDue := false, notices := [] } }

theorem besideRun_arbitrate (d : Dev) (p : Port) : (d.arbitrate p).besideRun p = d.besideRun p := by
  unfold Dev.arbitrate
  split
  · cases p
    · show d.takeP1.besideRun .p1 = _
      unfold Dev.takeP1
      split <;> rfl
    · show d.takeP2.besideRun .p2 = _
      unfold Dev.takeP2
      split
      · rfl
      · split <;> split <;> rfl
  · rfl

/-- Taking a frame counts nothing yet: the frame counts when it has been sent (R20). -/
theorem arbitrate_counters (d : Dev) (p : Port) : ((d.arbitrate p).lnk.port p).counters = (d.lnk.port p).counters := by
  unfold Dev.arbitrate
  split
  · cases p
    · show d.takeP1.lnk.p1.counters = _
      unfold Dev.takeP1
      split <;> rfl
    · show d.takeP2.lnk.p2.counters = _
      unfold Dev.takeP2
      split
      · rfl
      · split <;> split <;> rfl
  · rfl

theorem nextSegment_beside_run {d : Dev} {p : Port} {e : SlotEntry} {d' : Dev} (h : d.nextSegment p = some (e, d')) :
    d'.besideRun p = d.besideRun p ∧ (d'.lnk.port p).counters = (d.lnk.port p).counters := by
  unfold Dev.nextSegment at h
  split at h
  · cases h; cases p <;> exact ⟨rfl, rfl⟩
  · split at h
    · split at h
      · cases h; cases p <;> exact ⟨rfl, rfl⟩
      · cases h
    · cases h

theorem besideRun_slot (d : Dev) (p : Port) (e : Option SlotEntry) :
    (d.modPort p (fun r => { r with slot := e })).besideRun p = d.besideRun p := by cases p <;> rfl

theorem besideRun_discard (d : Dev) (p : Port) (e : SlotEntry) :
    ((d.countDiscarded p).segmentGone e).besideRun p = d.besideRun p := by cases p <;> rfl

theorem pump_besideRun (n : Nat) (p : Port) (d : Dev) : (Dev.pump n p d).besideRun p = d.besideRun p := by
  induction n generalizing d with
  | zero => rfl
  | succ n ih =>
    unfold Dev.pump
    split
    · rfl
    · split
      · rfl
      next e d' next =>
        obtain ⟨kept, -⟩ := nextSegment_beside_run next
        split
        · rw [ih, besideRun_arbitrate, besideRun_slot, kept]
        · rw [ih, besideRun_discard, kept]

theorem runPort_besideRun (d : Dev) (p : Port) : (d.runPort p).besideRun p = d.besideRun p := by
  rw [Dev.runPort, pump_besideRun, besideRun_arbitrate]

theorem besideRun_up {d e : Dev} {p : Port} (h : d.besideRun p = e.besideRun p) : (d.lnk.port p).up = (e.lnk.port p).up := by
  have up := congrArg (fun x => (x.lnk.port p).up) h
  cases p <;> exact up

theorem besideRun_lastOut {d e : Dev} {p : Port} (h : d.besideRun p = e.besideRun p) :
    (d.lnk.port p).lastOut = (e.lnk.port p).lastOut := by
  have last := congrArg (fun x => (x.lnk.port p).lastOut) h
  cases p <;> exact last

theorem besideRun_other {d e : Dev} {p : Port} (h : d.besideRun p = e.besideRun p) :
    d.lnk.port p.other = e.lnk.port p.other := by
  have other := congrArg (fun x => x.lnk.port p.other) h
  cases p <;> exact other

/-- A port whose link is UP discards nothing as it runs. -/
theorem pump_counters {d : Dev} {p : Port} (up : (d.lnk.port p).up = true) (n : Nat) :
    ((Dev.pump n p d).lnk.port p).counters = (d.lnk.port p).counters := by
  induction n generalizing d with
  | zero => rfl
  | succ n ih =>
    unfold Dev.pump
    split
    · rfl
    · split
      · rfl
      next e d' next =>
        obtain ⟨kept, counters⟩ := nextSegment_beside_run next
        have up' := (besideRun_up kept).trans up
        rw [if_pos up', ih, arbitrate_counters, ← counters]
        · cases p <;> rfl
        · rw [besideRun_up (besideRun_arbitrate _ p), besideRun_up (besideRun_slot d' p (some e)), up']

theorem runPort_counters {d : Dev} {p : Port} (up : (d.lnk.port p).up = true) :
    ((d.runPort p).lnk.port p).counters = (d.lnk.port p).counters := by
  rw [Dev.runPort, pump_counters ((besideRun_up (besideRun_arbitrate d p)).trans up), arbitrate_counters]

/-! ## A port whose link is DOWN -/

/-- What the discarding of segments at a DOWN port leaves alone. -/
def Dev.besideDiscards (d : Dev) (p : Port) : Dev :=
  (d.modPort p (fun r => { r with reply := none, counters := { r.counters with txDiscarded := 0 } })).modMgt
    (fun m => { m with service := none, restartDue := false })

theorem nextSegment_besideDiscards {d : Dev} {p : Port} {e : SlotEntry} {d' : Dev} (h : d.nextSegment p = some (e, d')) :
    d'.besideDiscards p = d.besideDiscards p := by
  unfold Dev.nextSegment at h
  split at h
  · cases h; cases p <;> rfl
  · split at h
    · split at h
      · cases h; cases p <;> rfl
      · cases h
    · cases h

theorem besideDiscards_countDiscarded (d : Dev) (p : Port) : (d.countDiscarded p).besideDiscards p = d.besideDiscards p := by
  cases p <;> rfl

theorem besideDiscards_segmentGone (d : Dev) (p : Port) (e : SlotEntry) :
    (d.segmentGone e).besideDiscards p = d.besideDiscards p := rfl

theorem pump_down {d : Dev} {p : Port} (down : (d.lnk.port p).up = false) (n : Nat) :
    (Dev.pump n p d).besideDiscards p = d.besideDiscards p := by
  induction n generalizing d with
  | zero => rfl
  | succ n ih =>
    unfold Dev.pump
    split
    · rfl
    · split
      · rfl
      next e d' next =>
        have kept := nextSegment_besideDiscards next
        have down' : (d'.lnk.port p).up = false := (besideRun_up (nextSegment_beside_run next).1).trans down
        rw [if_neg (by simp [down']), ih, besideDiscards_segmentGone, besideDiscards_countDiscarded, kept]
        rw [besideRun_up (besideRun_discard d' p e), down']

theorem arbitrate_down {d : Dev} {p : Port} (down : (d.lnk.port p).up = false) : d.arbitrate p = d := by
  simp [Dev.arbitrate, down]

/-! ## A port that takes no frame -/

/-- A port takes no frame while it sends one or its link is DOWN. -/
def Dev.portHeld (d : Dev) (p : Port) : Prop := d.portBusy p ∨ (d.lnk.port p).up = false

/-- What running a port that takes no frame leaves alone. -/
def Dev.besideSegments (d : Dev) (p : Port) : Dev := (d.besideDiscards p).modPort p (fun r => { r with slot := none })

theorem besideSegments_of_besideSlot {d e : Dev} {p : Port} (h : d.besideSlot p = e.besideSlot p) :
    d.besideSegments p = e.besideSegments p := by
  have segments := congrArg (fun x => x.besideSegments p) h
  cases p <;> exact segments

theorem runPort_held {d : Dev} {p : Port} (h : d.portHeld p) : (d.runPort p).besideSegments p = d.besideSegments p := by
  rcases h with busy | down
  · exact besideSegments_of_besideSlot (runPort_busy busy)
  · rw [Dev.runPort, arbitrate_down down]
    exact congrArg (fun x => x.modPort p (fun r => { r with slot := none })) (pump_down down pumpLimit)

theorem besideSegments_tx {d e : Dev} {p : Port} (h : d.besideSegments p = e.besideSegments p) :
    (d.lnk.port p).tx = (e.lnk.port p).tx := by
  have tx := congrArg (fun x => (x.lnk.port p).tx) h
  cases p <;> exact tx

/-- The frames that wait for the two ports, the counts of those dropped, and the notices that wait. -/
def Dev.waiting (d : Dev) : (List EthFrame × List EthFrame) × (List (Fin 24 × OutFrame) × List (Fin 24 × OutFrame)) ×
    List (Fin 6 × OutFrame) × (Nat × Nat × Nat) × List Notice :=
  ((d.lnk.fq12, d.lnk.fq21), (d.lnk.protQueue, d.lnk.ctrlQueue), d.lnk.setpoints, (d.lnk.fq12Drop, d.lnk.fq21Drop, d.lnk.screened),
    d.mgt.notices)

theorem besideSegments_waiting {d e : Dev} {p : Port} (h : d.besideSegments p = e.besideSegments p) : d.waiting = e.waiting := by
  have waiting := congrArg Dev.waiting h
  cases p <;> exact waiting

/-- At a port that takes no frame what waits goes on waiting. -/
theorem runPort_waiting {d : Dev} {p : Port} (h : d.portHeld p) : (d.runPort p).waiting = d.waiting :=
  besideSegments_waiting (runPort_held h)

theorem runPort_tx {d : Dev} {p : Port} (h : d.portHeld p) : ((d.runPort p).lnk.port p).tx = (d.lnk.port p).tx :=
  besideSegments_tx (runPort_held h)

/-! ## A free port -/

/-- A port whose link is UP, that sends nothing and for which no frame waits; a segment may still be to be placed. -/
structure Dev.portFree (d : Dev) (p : Port) : Prop where
  up      : (d.lnk.port p).up = true
  tx      : (d.lnk.port p).tx = none
  slot    : (d.lnk.port p).slot = none
  queues1 : p = .p1 → d.lnk.protQueue = [] ∧ d.lnk.ctrlQueue = [] ∧ d.lnk.setpoints = [] ∧ d.lnk.fq21 = []
  queues2 : p = .p2 → (d.tab.device.notice = 0 ∨ d.mgt.notices = []) ∧ d.lnk.fq12 = []

theorem Dev.portIdle.free {d : Dev} {p : Port} (h : d.portIdle p) : d.portFree p :=
  ⟨h.up, h.tx, h.slot, h.queues1, h.queues2⟩

theorem Dev.portFree.idle {d : Dev} {p : Port} (h : d.portFree p) (quiet : d.noSegment p) : d.portIdle p :=
  { quiet with up := h.up, tx := h.tx, slot := h.slot, queues1 := h.queues1, queues2 := h.queues2 }

theorem arbitrate_p1 {d : Dev} (up : d.lnk.p1.up = true) (tx : d.lnk.p1.tx = none) : d.arbitrate .p1 = d.takeP1 :=
  if_pos ⟨up, tx⟩

theorem arbitrate_p2 {d : Dev} (up : d.lnk.p2.up = true) (tx : d.lnk.p2.tx = none) : d.arbitrate .p2 = d.takeP2 :=
  if_pos ⟨up, tx⟩

/-- P2 passes its notices over when the notice address is 0 or none waits (R18). -/
theorem takeP2_forward {d : Dev} {x : EthFrame} {xs : List EthFrame} (slot : d.lnk.p2.slot = none)
    (passed : d.tab.device.notice = 0 ∨ d.mgt.notices = []) (queue : d.lnk.fq12 = x :: xs) :
    d.takeP2 = Dev.startForward { d with lnk := { d.lnk with fq12 := xs } } .p2 x := by
  simp only [Dev.takeP2, slot, queue, if_neg (show ¬ (d.tab.device.notice ≠ 0 ∧ d.mgt.notices ≠ []) by tauto)]

theorem takeP2_nothing {d : Dev} (slot : d.lnk.p2.slot = none) (passed : d.tab.device.notice = 0 ∨ d.mgt.notices = [])
    (queue : d.lnk.fq12 = []) : d.takeP2 = d := by
  simp only [Dev.takeP2, slot, queue, if_neg (show ¬ (d.tab.device.notice ≠ 0 ∧ d.mgt.notices ≠ []) by tauto)]

theorem takeP2_notice {d : Dev} {n : Notice} {ns : List Notice} (slot : d.lnk.p2.slot = none)
    (address : d.tab.device.notice ≠ 0) (queue : d.mgt.notices = n :: ns) :
    d.takeP2 = (d.modMgt (fun m => { m with notices := ns })).startOwn .p2 (d.noticeFrame n) := by
  simp only [Dev.takeP2, slot, queue, if_pos (show d.tab.device.notice ≠ 0 ∧ n :: ns ≠ [] from ⟨address, List.cons_ne_nil n ns⟩)]

theorem takeP2_slot {d : Dev} {e : SlotEntry} (slot : d.lnk.p2.slot = some e) : d.takeP2 = d.takeSlot .p2 e := by
  simp only [Dev.takeP2, slot]

theorem takeP1_prot {d : Dev} {x : Fin 24 × OutFrame} {xs : List (Fin 24 × OutFrame)} (prot : d.lnk.protQueue = x :: xs) :
    d.takeP1 = Dev.startOwn { d with lnk := { d.lnk with protQueue := xs } } .p1 x.2 := by
  simp only [Dev.takeP1, prot]

theorem takeP1_ctrl {d : Dev} {x : Fin 24 × OutFrame} {xs : List (Fin 24 × OutFrame)} (prot : d.lnk.protQueue = [])
    (ctrl : d.lnk.ctrlQueue = x :: xs) :
    d.takeP1 = Dev.startOwn { d with lnk := { d.lnk with ctrlQueue := xs } } .p1 x.2 := by
  simp only [Dev.takeP1, prot, ctrl]

theorem takeP1_setpoint {d : Dev} {x : Fin 6 × OutFrame} {xs : List (Fin 6 × OutFrame)} (prot : d.lnk.protQueue = [])
    (ctrl : d.lnk.ctrlQueue = []) (sets : d.lnk.setpoints = x :: xs) :
    d.takeP1 = Dev.startOwn { d with lnk := { d.lnk with setpoints := xs } } .p1 x.2 := by
  simp only [Dev.takeP1, prot, ctrl, sets]

theorem takeP1_slot {d : Dev} {e : SlotEntry} (prot : d.lnk.protQueue = []) (ctrl : d.lnk.ctrlQueue = [])
    (sets : d.lnk.setpoints = []) (slot : d.lnk.p1.slot = some e) : d.takeP1 = d.takeSlot .p1 e := by
  simp only [Dev.takeP1, prot, ctrl, sets, slot]

theorem takeP1_forward {d : Dev} {x : EthFrame} {xs : List EthFrame} (prot : d.lnk.protQueue = []) (ctrl : d.lnk.ctrlQueue = [])
    (sets : d.lnk.setpoints = []) (slot : d.lnk.p1.slot = none) (queue : d.lnk.fq21 = x :: xs) :
    d.takeP1 = Dev.startForward { d with lnk := { d.lnk with fq21 := xs } } .p1 x := by
  simp only [Dev.takeP1, prot, ctrl, sets, slot, queue]

theorem takeP1_nothing {d : Dev} (prot : d.lnk.protQueue = []) (ctrl : d.lnk.ctrlQueue = []) (sets : d.lnk.setpoints = [])
    (slot : d.lnk.p1.slot = none) (queue : d.lnk.fq21 = []) : d.takeP1 = d := by
  simp only [Dev.takeP1, prot, ctrl, sets, slot, queue]

theorem Dev.portFree.arbitrate {d : Dev} {p : Port} (h : d.portFree p) : d.arbitrate p = d := by
  cases p with
  | p1 =>
    obtain ⟨prot, ctrl, sets, queue⟩ := h.queues1 rfl
    rw [arbitrate_p1 h.up h.tx, takeP1_nothing prot ctrl sets h.slot queue]
  | p2 =>
    obtain ⟨notices, queue⟩ := h.queues2 rfl
    rw [arbitrate_p2 h.up h.tx, takeP2_nothing h.slot notices queue]

/-- An idle port has nothing to do. -/
theorem Dev.portIdle.runPort {d : Dev} {p : Port} (h : d.portIdle p) : d.runPort p = d := by
  have nothing := h.free.arbitrate
  rw [runPort_quiet (by rw [nothing]; exact h.tonoSegment), nothing]

/-- A free port takes the segment in its slot at once. -/
theorem Dev.portFree.arbitrate_slot {d : Dev} {p : Port} (h : d.portFree p) (e : SlotEntry) :
    (d.modPort p (fun r => { r with slot := some e })).arbitrate p
      = (d.modPort p (fun r => { r with tx := some (e.frame.toEth p r.seq), seq := r.seq + 1 })).segmentGone e := by
  cases p with
  | p1 =>
    obtain ⟨prot, ctrl, sets, -⟩ := h.queues1 rfl
    have slot : d.lnk.p1.slot = none := h.slot
    rw [arbitrate_p1 (by exact h.up) (by exact h.tx), takeP1_slot (e := e) (by exact prot) (by exact ctrl) (by exact sets) rfl]
    simp only [Dev.takeSlot, Dev.startOwn, Dev.modPort, Lnk.modPort, slot]
  | p2 =>
    have slot : d.lnk.p2.slot = none := h.slot
    rw [arbitrate_p2 (by exact h.up) (by exact h.tx), takeP2_slot rfl]
    simp only [Dev.takeSlot, Dev.startOwn, Dev.modPort, Lnk.modPort, slot]

/-- At a free port a segment to be placed leaves at once, and what is then to be placed follows. -/
theorem Dev.portFree.pump_succ {d : Dev} {p : Port} {e : SlotEntry} {d' : Dev} (h : d.portFree p) (h' : d'.portFree p)
    (next : d.nextSegment p = some (e, d')) (n : Nat) :
    Dev.pump (n + 1) p d = Dev.pump n p
      ((d'.modPort p (fun r => { r with tx := some (e.frame.toEth p r.seq), seq := r.seq + 1 })).segmentGone e) := by
  rw [Dev.pump, if_neg (by simp [h.slot]), next]
  dsimp only
  rw [if_pos h'.up, h'.arbitrate_slot]

end Sys2Proof.Machine

/-!
The forward queues and the setpoint queue (R11, R15): what a frame's joining one comes to at a port that takes no frame and at
an idle one, and the order of the setpoint queue (O59).
-/
namespace Sys2Proof.Machine

/-! ## Updates that leave a port as it was -/

theorem Dev.portIdle.modCounters {d : Dev} {p : Port} (h : d.portIdle p) (q : Port) (f : PortCounters → PortCounters) :
    (d.modCounters q f).portIdle p := by
  obtain ⟨⟨reply, response⟩, up, tx, slot, queues1, queues2⟩ := h
  cases p <;> cases q <;> exact ⟨⟨reply, response⟩, up, tx, slot, queues1, queues2⟩

theorem Dev.portBusy.modCounters {d : Dev} {p : Port} (h : d.portBusy p) (q : Port) (f : PortCounters → PortCounters) :
    (d.modCounters q f).portBusy p := by
  obtain ⟨up, tx⟩ := h
  cases p <;> cases q <;> exact ⟨up, tx⟩

theorem Dev.portHeld.modCounters {d : Dev} {p : Port} (h : d.portHeld p) (q : Port) (f : PortCounters → PortCounters) :
    (d.modCounters q f).portHeld p := by
  rcases h with busy | down
  · exact .inl (busy.modCounters q f)
  · exact .inr (by cases p <;> cases q <;> exact down)

/-! ## The forward queues -/

/-- The device with other frames in FQ12. -/
def Dev.withFq12 (d : Dev) (q : List EthFrame) : Dev := { d with lnk := { d.lnk with fq12 := q } }

/-- The device with other frames in FQ21. -/
def Dev.withFq21 (d : Dev) (q : List EthFrame) : Dev := { d with lnk := { d.lnk with fq21 := q } }

theorem forward_p1_full {d : Dev} (f : EthFrame) (full : 32 ≤ d.lnk.fq12.length) :
    d.forward .p1 f = { d with lnk := { d.lnk with fq12Drop := sat32 d.lnk.fq12Drop } } := if_neg (Nat.not_lt.mpr full)

theorem forward_p2_full {d : Dev} (f : EthFrame) (full : 32 ≤ d.lnk.fq21.length) :
    d.forward .p2 f = { d with lnk := { d.lnk with fq21Drop := sat32 d.lnk.fq21Drop } } := if_neg (Nat.not_lt.mpr full)

theorem forward_p1_room {d : Dev} (f : EthFrame) (room : d.lnk.fq12.length < 32) :
    d.forward .p1 f = (d.withFq12 (d.lnk.fq12 ++ [f])).runPort .p2 := if_pos room

theorem forward_p2_room {d : Dev} (f : EthFrame) (room : d.lnk.fq21.length < 32) :
    d.forward .p2 f = (d.withFq21 (d.lnk.fq21 ++ [f])).runPort .p1 := if_pos room

theorem Dev.portFree.arbitrate_fq12 {d : Dev} (h : d.portFree .p2) (f : EthFrame) :
    (d.withFq12 [f]).arbitrate .p2 = d.modPort .p2 (fun r => { r with tx := some f }) :=
  calc
    _ = (d.withFq12 [f]).takeP2 := arbitrate_p2 h.up h.tx
    _ = ((d.withFq12 [f]).withFq12 []).startForward .p2 f := takeP2_forward h.slot (h.queues2 rfl).1 rfl
    _ = _ := by simp only [Dev.withFq12, Dev.startForward, Dev.modPort, Lnk.modPort, (h.queues2 rfl).2]

theorem Dev.portFree.arbitrate_fq21 {d : Dev} (h : d.portFree .p1) (f : EthFrame) :
    (d.withFq21 [f]).arbitrate .p1 = d.modPort .p1 (fun r => { r with tx := some f }) := by
  obtain ⟨prot, ctrl, sets, queue⟩ := h.queues1 rfl
  calc
    _ = (d.withFq21 [f]).takeP1 := arbitrate_p1 h.up h.tx
    _ = ((d.withFq21 [f]).withFq21 []).startForward .p1 f := takeP1_forward prot ctrl sets h.slot rfl
    _ = _ := by simp only [Dev.withFq21, Dev.startForward, Dev.modPort, Lnk.modPort, queue]

/-- A frame to forward leaves at once from an idle port, unchanged. -/
theorem forward_idle {d : Dev} {p : Port} (h : d.portIdle p.other) (f : EthFrame) :
    d.forward p f = d.modPort p.other (fun r => { r with tx := some f }) := by
  cases p with
  | p1 =>
    have queue : d.lnk.fq12 = [] := (h.queues2 rfl).2
    have taken := h.free.arbitrate_fq12 f
    rw [forward_p1_room f (by simp [queue]), queue, List.nil_append,
      runPort_quiet (by rw [taken]; exact ⟨h.reply, h.response⟩), taken]
    rfl
  | p2 =>
    have queue : d.lnk.fq21 = [] := (h.queues1 rfl).2.2.2
    have taken := h.free.arbitrate_fq21 f
    rw [forward_p2_room f (by simp [queue]), queue, List.nil_append,
      runPort_quiet (by rw [taken]; exact ⟨h.reply, h.response⟩), taken]
    rfl

/-- A frame to forward changes no port's transmission while its own port takes no frame. -/
theorem forward_held_tx {d : Dev} {p : Port} (h : d.portHeld p.other) (f : EthFrame) :
    ((d.forward p f).lnk.port p.other).tx = (d.lnk.port p.other).tx := by
  cases p <;> (unfold Dev.forward; dsimp only; split)
  · exact runPort_tx (d := d.withFq12 (d.lnk.fq12 ++ [f])) (h.imp (fun b => ⟨b.up, b.tx⟩) id)
  · rfl
  · exact runPort_tx (d := d.withFq21 (d.lnk.fq21 ++ [f])) (h.imp (fun b => ⟨b.up, b.tx⟩) id)
  · rfl

/-- While P2 takes no frame, a frame to forward joins the tail of FQ12. -/
theorem forward_p1_waiting {d : Dev} (h : d.portHeld .p2) (f : EthFrame) (room : d.lnk.fq12.length < 32) :
    (d.forward .p1 f).waiting = (d.withFq12 (d.lnk.fq12 ++ [f])).waiting := by
  rw [forward_p1_room f room]
  exact runPort_waiting (h.imp (fun b => ⟨b.up, b.tx⟩) id)

/-- While P1 takes no frame, a frame to forward joins the tail of FQ21. -/
theorem forward_p2_waiting {d : Dev} (h : d.portHeld .p1) (f : EthFrame) (room : d.lnk.fq21.length < 32) :
    (d.forward .p2 f).waiting = (d.withFq21 (d.lnk.fq21 ++ [f])).waiting := by
  rw [forward_p2_room f room]
  exact runPort_waiting (h.imp (fun b => ⟨b.up, b.tx⟩) id)

/-- What a frame that arrives on P1 does not touch: the queue away from P2. -/
theorem forward_p1_fq21 (d : Dev) (f : EthFrame) :
    (d.forward .p1 f).lnk.fq21 = d.lnk.fq21 ∧ (d.forward .p1 f).lnk.fq21Drop = d.lnk.fq21Drop := by
  rcases Nat.lt_or_ge d.lnk.fq12.length 32 with room | full
  · rw [forward_p1_room f room]
    have kept := runPort_besideRun (d.withFq12 (d.lnk.fq12 ++ [f])) .p2
    exact ⟨congrArg (fun x => x.lnk.fq21) kept, congrArg (fun x => x.lnk.fq21Drop) kept⟩
  · rw [forward_p1_full f full]
    exact ⟨rfl, rfl⟩

/-- What a frame that arrives on P2 does not touch: the queue away from P1. -/
theorem forward_p2_fq12 (d : Dev) (f : EthFrame) :
    (d.forward .p2 f).lnk.fq12 = d.lnk.fq12 ∧ (d.forward .p2 f).lnk.fq12Drop = d.lnk.fq12Drop := by
  rcases Nat.lt_or_ge d.lnk.fq21.length 32 with room | full
  · rw [forward_p2_room f room]
    have kept := runPort_besideRun (d.withFq21 (d.lnk.fq21 ++ [f])) .p1
    exact ⟨congrArg (fun x => x.lnk.fq12) kept, congrArg (fun x => x.lnk.fq12Drop) kept⟩
  · rw [forward_p2_full f full]
    exact ⟨rfl, rfl⟩

/-! ## Queues with keys -/

theorem putKey_new {κ α : Type} [DecidableEq κ] {k : κ} {q : List (κ × α)} (new : ∀ x ∈ q, x.1 ≠ k) (x : α) :
    putKey k x q = q ++ [(k, x)] := by
  have absent : ¬ q.any (fun y => decide (y.1 = k)) = true := fun present =>
    have ⟨y, hy, e⟩ := List.any_eq_true.mp present
    new y hy (of_decide_eq_true e)
  rw [putKey, if_neg absent]

theorem map_replace_of_ne {κ α : Type} [DecidableEq κ] {k : κ} {q : List (κ × α)} (h : ∀ y ∈ q, y.1 ≠ k) (x : α) :
    q.map (fun y => if y.1 = k then (k, x) else y) = q := by
  have same : q.map (fun y => if y.1 = k then (k, x) else y) = q.map id := List.map_congr_left fun y hy => if_neg (h y hy)
  rw [same, List.map_id]

/-- Where each key stands once, a key's new entry takes its waiting one's place, and no other entry moves. -/
theorem putKey_waiting {κ α : Type} [DecidableEq κ] {k : κ} {pre post : List (κ × α)} {old : α}
    (once : ((pre ++ [(k, old)] ++ post).map Prod.fst).Nodup) (x : α) :
    putKey k x (pre ++ [(k, old)] ++ post) = pre ++ [(k, x)] ++ post := by
  simp only [List.map_append, List.map_cons, List.map_nil] at once
  rw [List.nodup_append, List.nodup_append] at once
  obtain ⟨⟨-, -, before⟩, -, behind⟩ := once
  have hpre : ∀ y ∈ pre, y.1 ≠ k := fun y hy => before _ (List.mem_map_of_mem hy) k (List.mem_singleton_self k)
  have hpost : ∀ y ∈ post, y.1 ≠ k := fun y hy e =>
    behind k (List.mem_append_right _ (List.mem_singleton_self k)) _ (List.mem_map_of_mem hy) e.symm
  rw [putKey, if_pos (by simp), List.map_append, List.map_append, map_replace_of_ne hpre, map_replace_of_ne hpost]
  simp

theorem putKey_nodup {κ α : Type} [DecidableEq κ] {q : List (κ × α)} (h : (q.map Prod.fst).Nodup) (k : κ) (x : α) :
    ((putKey k x q).map Prod.fst).Nodup := by
  rw [map_fst_putKey]
  simpa using nodup_put k (q.map Prod.fst) [] (by simpa using h)

theorem mem_putKey_same {κ α : Type} [DecidableEq κ] (k : κ) (x : α) (q : List (κ × α)) : (k, x) ∈ putKey k x q := by
  unfold putKey
  split
  next waits =>
    obtain ⟨y, hy, e⟩ := List.any_eq_true.mp waits
    exact List.mem_map.mpr ⟨y, hy, if_pos (of_decide_eq_true e)⟩
  next => simp

theorem mem_putKey_of_ne {κ α : Type} [DecidableEq κ] {k : κ} {y : κ × α} {q : List (κ × α)} (hy : y ∈ q) (other : y.1 ≠ k)
    (x : α) : y ∈ putKey k x q := by
  unfold putKey
  split
  · exact List.mem_map.mpr ⟨y, hy, if_neg other⟩
  · exact List.mem_append_left _ hy

/-! ## The setpoint queue -/

/-- The device with other frames in the setpoint queue. -/
def Dev.withSetpoints (d : Dev) (q : List (Fin 6 × OutFrame)) : Dev := { d with lnk := { d.lnk with setpoints := q } }

/-- While P1 takes no frame the frame stays in the queue. -/
theorem enqueueSetpoint_held {d : Dev} (h : d.portHeld .p1) (g : Fin 6) (f : OutFrame) :
    (d.enqueueSetpoint g f).lnk.setpoints = putKey g f d.lnk.setpoints :=
  congrArg (fun w => w.2.2.1)
    (runPort_waiting (p := .p1) (d := d.withSetpoints (putKey g f d.lnk.setpoints))
      (Or.imp (fun b => ⟨b.up, b.tx⟩) id h))

theorem Dev.portFree.arbitrate_setpoint {d : Dev} (h : d.portFree .p1) (g : Fin 6) (f : OutFrame) :
    (d.withSetpoints [(g, f)]).arbitrate .p1 = d.startOwn .p1 f := by
  obtain ⟨prot, ctrl, sets, -⟩ := h.queues1 rfl
  calc
    _ = (d.withSetpoints [(g, f)]).takeP1 := arbitrate_p1 h.up h.tx
    _ = ((d.withSetpoints [(g, f)]).withSetpoints []).startOwn .p1 f :=
      takeP1_setpoint (d := d.withSetpoints [(g, f)]) (x := (g, f)) (xs := []) prot ctrl rfl
    _ = _ := by simp only [Dev.withSetpoints, Dev.startOwn, Dev.modPort, Lnk.modPort, sets]

/-- An idle P1 takes the frame at once. -/
theorem enqueueSetpoint_idle {d : Dev} (h : d.portIdle .p1) (g : Fin 6) (f : OutFrame) :
    d.enqueueSetpoint g f = d.startOwn .p1 f := by
  have sets : d.lnk.setpoints = [] := (h.queues1 rfl).2.2.1
  have taken := h.free.arbitrate_setpoint g f
  show (d.withSetpoints (putKey g f d.lnk.setpoints)).runPort .p1 = _
  rw [sets, putKey_new (by simp), List.nil_append]
  have quiet : (d.startOwn .p1 f).noSegment .p1 := ⟨h.reply, h.response⟩
  rw [runPort_quiet (by rw [taken]; exact quiet), taken]

/-- No more entries than keys. -/
theorem length_le_of_nodup_keys {n : Nat} {α : Type} {q : List (Fin n × α)} (h : (q.map Prod.fst).Nodup) : q.length ≤ n := by
  simpa using h.length_le_card

/-- Running a port only ever takes setpoints out of their queue. -/
theorem setpoints_inner : Inner (fun d => (d.lnk.setpoints.map Prod.fst).Nodup) := {
  port := fun p f _ h => by rwa [Dev.modPort_lnk, Lnk.modPort_setpoints]
  popProt := fun _ h => h, popCtrl := fun _ h => h
  popSet := fun e h => by rw [e] at h; exact (List.nodup_cons.mp h).2
  pop12 := fun _ h => h, pop21 := fun _ h => h, putProt := fun _ _ h => h, putCtrl := fun _ _ h => h, dropCmd := fun _ h => h
  putSet := fun g x h => putKey_nodup h g x
  service := fun _ _ h => h, popNotice := fun _ h => h, error := fun _ _ h => h
  notice := fun n h => by unfold Dev.noticePut; dsimp only; split <;> exact h
  trigger := fun _ _ h => h, work := fun _ h => h, ties := fun _ h => h, breaker := fun _ _ _ _ h => h, jobs := fun _ h => h
  cause := fun _ h => h, gen := fun _ _ _ h => h, demand := fun _ h => h, grant := fun _ h => h, sync := fun _ h => h
  busReq := fun _ h => h, chg := fun _ _ h => h }

/-- Settles O59: the queue is `putKey`'s while P1 sends, P1's at once when it is idle, and never has a set twice. -/
theorem setpointQueueOrder : Obligations.SetpointQueueOrder := by
  intro d g f once
  have nodup : ((d.enqueueSetpoint g f).lnk.setpoints.map Prod.fst).Nodup := setpoints_inner.enqueueSetpoint g f once
  refine ⟨fun busy => ?_, fun idle => ?_, nodup, length_le_of_nodup_keys nodup⟩
  · rw [enqueueSetpoint_held (.inl busy)]
    refine ⟨fun new => putKey_new new f, fun pre post old queue => ?_⟩
    rw [queue] at once ⊢
    exact putKey_waiting once f
  · obtain ⟨-, -, sets, -⟩ := idle.queues1 rfl
    rw [enqueueSetpoint_idle idle]
    exact ⟨sets, rfl⟩

end Sys2Proof.Machine

/-!
The frame path (R2, R3, R6 to R9, R12, R13): what the reception of each sort of frame comes to, and with it the frames that
only count (O11), those that are forwarded (O12), the malformed samples (O13) and the screened commands (O14).
-/
namespace Sys2Proof.Machine

/-! ## Reception -/

/-- The device with the level of MAINT_IN that arrives with a frame. -/
def Dev.withPin (d : Dev) (m : Bool) : Dev := { d with prot := { d.prot with maintPin := m } }

/-- The device with a good frame counted that arrives on a port with a level of MAINT_IN. -/
def Dev.arrived (d : Dev) (p : Port) (m : Bool) : Dev := (d.withPin m).countGood p

theorem exec_frameReception {s : State} (run : s.power = .running) (p : Port) (f : EthFrame) (m : Bool) :
    exec (.frameReception p f m) s = .next (s.withDev ((s.dev.withPin m).receive p f)) := if_pos run

theorem receive_down {d : Dev} {p : Port} (down : (d.lnk.port p).up = false) (f : EthFrame) : d.receive p f = d := by
  simp [Dev.receive, down]

theorem receive_checkError {d : Dev} {p : Port} {f : EthFrame} (up : (d.lnk.port p).up = true) (bad : f.checkOk = false) :
    d.receive p f = d.modCounters p (fun c => { c with rxCheckError := sat32 c.rxCheckError }) := by
  simp [Dev.receive, up, bad]

theorem receive_runt {d : Dev} {p : Port} {f : EthFrame} (up : (d.lnk.port p).up = true) (check : f.checkOk = true)
    (type : f.etherType = Config.baylineType) (short : f.payload.length < 10) :
    d.receive p f = d.modCounters p (fun c => { c with rxRunt := sat32 c.rxRunt }) := by
  simp [Dev.receive, up, check, type, short]

theorem receive_otherType {d : Dev} {p : Port} {f : EthFrame} (up : (d.lnk.port p).up = true) (check : f.checkOk = true)
    (type : f.etherType ≠ Config.baylineType) : d.receive p f = (d.countGood p).forward p f := by
  simp [Dev.receive, up, check, type]

theorem receive_bayline {d : Dev} {p : Port} {f : EthFrame} (up : (d.lnk.port p).up = true) (check : f.checkOk = true)
    (type : f.etherType = Config.baylineType) (long : 10 ≤ f.payload.length) :
    d.receive p f = (d.countGood p).classifyFrame p f := by
  simp [Dev.receive, up, check, type, long]

/-- A Bayline frame with a whole header is classified. -/
theorem exec_bayline {s : State} {p : Port} {f : EthFrame} (run : s.power = .running) (up : (s.dev.lnk.port p).up = true)
    (check : f.checkOk = true) (type : f.etherType = Config.baylineType) (long : 10 ≤ f.payload.length) (m : Bool) :
    exec (.frameReception p f m) s = .next (s.withDev ((s.dev.arrived p m).classifyFrame p f)) := by
  rw [exec_frameReception run, receive_bayline (by exact up) check type long, Dev.arrived]

theorem modCounters_modCounters (d : Dev) (p : Port) (f g : PortCounters → PortCounters) :
    (d.modCounters p f).modCounters p g = d.modCounters p (fun c => g (f c)) := by cases p <;> rfl

/-! ## Classification -/

theorem classifyFrame_own {d : Dev} {f : EthFrame} (own : field f.payload 2 2 = d.tab.device.station) (p : Port) :
    d.classifyFrame p f = d.modCounters p (fun c => { c with rxOwnSource := sat32 c.rxOwnSource }) := by
  cases p <;> exact if_pos own

/-- A frame of another source that is addressed to the part. -/
theorem classifyFrame_addressed {d : Dev} {f : EthFrame} (source : field f.payload 2 2 ≠ d.tab.device.station)
    (dest : field f.payload 0 2 = d.tab.device.station) (p : Port) :
    d.classifyFrame p f
      = d.addressed p (parseHeader f.payload) (content (Config.modulus d.f60) (parseHeader f.payload) f.payload) f := by
  cases p <;> exact (if_neg source).trans (if_pos dest)

/-- A frame on P1 that a block consumes. -/
theorem classifyFrame_consumed {d : Dev} {f : EthFrame} {k : Consumer} (source : field f.payload 2 2 ≠ d.tab.device.station)
    (dest : field f.payload 0 2 ≠ d.tab.device.station) (consumer : d.tab.consumer (parseHeader f.payload) = some k) :
    d.classifyFrame .p1 f = d.consume k (parseHeader f.payload)
      (content (Config.modulus d.f60) (parseHeader f.payload) f.payload) f (d.tab.forwards k) := by
  refine ((if_neg source).trans (if_neg dest)).trans ?_
  rw [consumer]

theorem classifyFrame_p1_other {d : Dev} {f : EthFrame} (source : field f.payload 2 2 ≠ d.tab.device.station)
    (dest : field f.payload 0 2 ≠ d.tab.device.station) (consumer : d.tab.consumer (parseHeader f.payload) = none) :
    d.classifyFrame .p1 f = d.forward .p1 f := by
  refine ((if_neg source).trans (if_neg dest)).trans ?_
  rw [consumer]

/-- A frame on P2 that is no COMMAND to a used breaker. -/
theorem classifyFrame_p2_other {d : Dev} {f : EthFrame} (source : field f.payload 2 2 ≠ d.tab.device.station)
    (dest : field f.payload 0 2 ≠ d.tab.device.station)
    (noCommand : (parseHeader f.payload).kind = 3 → d.tab.breakerAt (parseHeader f.payload).dest = none) :
    d.classifyFrame .p2 f
      = (d.missed (parseHeader f.payload) (content (Config.modulus d.f60) (parseHeader f.payload) f.payload)).forward .p2 f := by
  refine ((if_neg source).trans (if_neg dest)).trans ?_
  have none : (if (parseHeader f.payload).kind = 3 then d.tab.breakerAt (parseHeader f.payload).dest else none) = none := by
    split
    · exact noCommand ‹_›
    · rfl
  rw [none]

/-- A COMMAND on P2 to a used breaker. -/
theorem classifyFrame_command {d : Dev} {f : EthFrame} {b : Fin 24} (source : field f.payload 2 2 ≠ d.tab.device.station)
    (dest : field f.payload 0 2 ≠ d.tab.device.station) (kind : field f.payload 4 1 = 3)
    (breaker : d.tab.breakerAt (field f.payload 0 2) = some b) :
    d.classifyFrame .p2 f = d.screen b (content (Config.modulus d.f60) (parseHeader f.payload) f.payload) f := by
  refine ((if_neg source).trans (if_neg dest)).trans ?_
  have found : (if (parseHeader f.payload).kind = 3 then d.tab.breakerAt (parseHeader f.payload).dest else none) = some b :=
    (if_pos kind).trans breaker
  rw [found]

/-! ## Frames that only count -/

/-- Settles O11: each of the four is a branch of the reception that ends in a count. -/
theorem discardedFramesOnlyCount : Obligations.DiscardedFramesOnlyCount := by
  intro s p f m run
  have received := exec_frameReception run p f m
  refine ⟨fun down => ?_, fun up bad => ?_, fun up check type short => ?_, fun up check type long own => ?_⟩
  · rw [received, receive_down (by exact down)]
    rfl
  · rw [received, receive_checkError (by exact up) bad]
    rfl
  · rw [received, receive_runt (by exact up) check type short]
    rfl
  · rw [exec_bayline run up check type long, classifyFrame_own (by exact own), Dev.arrived, Dev.countGood,
      modCounters_modCounters]
    rfl

/-! ## Frames that are only forwarded -/

theorem missed_of_sound {d : Dev} {h : Header} {x : Content} (sound : x = .malformed → ∀ i, d.tab.consumer h ≠ some (.stream i)) :
    d.missed h x = d := by
  unfold Dev.missed
  split
  next i consumer => exact absurd consumer (sound rfl i)
  next => rfl

/-- A frame that passes a port is counted and forwarded, and nothing else is done with it. -/
theorem receive_passes {d : Dev} {p : Port} {f : EthFrame} (h : d.passes p f) : d.receive p f = (d.countGood p).forward p f := by
  by_cases type : f.etherType = Config.baylineType
  · obtain ⟨long, source, dest, consumer, command, sample⟩ := h.other type
    rw [receive_bayline h.up h.check type long]
    cases p with
    | p1 => exact classifyFrame_p1_other source dest (consumer rfl)
    | p2 =>
      rw [classifyFrame_p2_other (by exact source) (by exact dest) (by exact command rfl), missed_of_sound (by exact sample rfl)]
  · exact receive_otherType h.up h.check type

theorem exec_passes {s : State} {p : Port} {f : EthFrame} (run : s.power = .running) (h : s.dev.passes p f) (m : Bool) :
    exec (.frameReception p f m) s = .next (s.withDev ((s.dev.arrived p m).forward p f)) := by
  rw [exec_frameReception run, receive_passes (d := s.dev.withPin m) ⟨h.up, h.check, h.other⟩, Dev.arrived]

theorem Dev.portIdle.arrived {d : Dev} {q : Port} (h : d.portIdle q) (p : Port) (m : Bool) : (d.arrived p m).portIdle q := by
  have pinned : (d.withPin m).portIdle q := ⟨⟨h.reply, h.response⟩, h.up, h.tx, h.slot, h.queues1, h.queues2⟩
  exact pinned.modCounters p (fun c => { c with rxGood := sat32 c.rxGood })

theorem Dev.portBusy.arrived {d : Dev} {q : Port} (h : d.portBusy q) (p : Port) (m : Bool) : (d.arrived p m).portBusy q := by
  have pinned : (d.withPin m).portBusy q := ⟨h.up, h.tx⟩
  exact pinned.modCounters p (fun c => { c with rxGood := sat32 c.rxGood })

theorem Dev.portHeld.arrived {d : Dev} {q : Port} (h : d.portHeld q) (p : Port) (m : Bool) : (d.arrived p m).portHeld q := by
  have pinned : (d.withPin m).portHeld q := h.imp (fun busy => ⟨busy.up, busy.tx⟩) id
  exact pinned.modCounters p (fun c => { c with rxGood := sat32 c.rxGood })

@[simp] theorem arrived_bare (d : Dev) (p : Port) (m : Bool) : (d.arrived p m).bare = (d.withPin m).bare := rfl

@[simp] theorem arrived_tx (d : Dev) (p q : Port) (m : Bool) : ((d.arrived p m).lnk.port q).tx = (d.lnk.port q).tx := by
  cases p <;> cases q <;> rfl

/-- Settles O12: a frame that passes is a `Dev.forward`, to an idle port or to one that takes no frame. -/
theorem forwardedFrames : Obligations.ForwardedFrames := by
  refine ⟨fun s p f m run passes idle => ?_, fun s p f m run passes held => ?_⟩
  · rw [exec_passes run passes, forward_idle (idle.arrived p m)]
    rfl
  · have held' : (s.dev.arrived p m).portHeld p.other := Dev.portHeld.arrived held p m
    have tx := (forward_held_tx held' f).trans (arrived_tx s.dev p p.other m)
    refine ⟨_, exec_passes run passes m, rfl, (bare_forward _ p f).trans (arrived_bare s.dev p m), tx, ?_⟩
    cases p with
    | p1 =>
      refine ⟨fun _ room => ?_, fun _ full => ?_, fun _ => ?_, nofun, nofun, nofun⟩
      · have queued := forward_p1_waiting held' f room
        exact ⟨congrArg (fun w => w.1.1) queued, congrArg (fun w => w.2.2.2.1.1) queued⟩
      · have dropped := forward_p1_full (d := s.dev.arrived .p1 m) f full
        exact ⟨congrArg (fun d => d.lnk.fq12) dropped, congrArg (fun d => d.lnk.fq12Drop) dropped⟩
      · exact forward_p1_fq21 (s.dev.arrived .p1 m) f
    | p2 =>
      refine ⟨nofun, nofun, nofun, fun _ room => ?_, fun _ full => ?_, fun _ => ?_⟩
      · have queued := forward_p2_waiting held' f room
        exact ⟨congrArg (fun w => w.1.2) queued, congrArg (fun w => w.2.2.2.1.2.1) queued⟩
      · have dropped := forward_p2_full (d := s.dev.arrived .p2 m) f full
        exact ⟨congrArg (fun d => d.lnk.fq21) dropped, congrArg (fun d => d.lnk.fq21Drop) dropped⟩
      · exact forward_p2_fq12 (s.dev.arrived .p2 m) f

/-! ## Malformed samples -/

/-- A malformed SAMPLE of an enabled stream's source is reported to SAU (R8). -/
theorem missed_sample {d : Dev} {h : Header} {i : Fin 24} (consumer : d.tab.consumer h = some (.stream i)) :
    d.missed h .malformed = d.missingSample i := by
  simp only [Dev.missed, consumer]

theorem consumer_sample {t : Tables} {bs : List Byte} {i : Fin 24} (kind : field bs 4 1 = 1)
    (stream : t.streamAt (field bs 2 2) = some i) : t.consumer (parseHeader bs) = some (.stream i) := by
  unfold Tables.consumer
  rw [show (parseHeader bs).kind = 1 from kind]
  exact congrArg (Option.map Consumer.stream) stream

theorem Dev.portIdle.missingSample {d : Dev} {p : Port} (h : d.portIdle p) (i : Fin 24) : (d.missingSample i).portIdle p :=
  ⟨⟨h.reply, h.response⟩, h.up, h.tx, h.slot, h.queues1, h.queues2⟩

/-- Settles O13: on P1 the frame is consumed or addressed, on P2 addressed or forwarded, and each way it is reported once. -/
theorem malformedSampleOnlyCounts : Obligations.MalformedSampleOnlyCounts := by
  intro s f m i run check type long kind source stream malformed d dropped
  have consumer (p : Port) : (s.dev.arrived p m).tab.consumer (parseHeader f.payload) = some (.stream i) :=
    consumer_sample kind stream
  have content (p : Port) : content (Config.modulus (s.dev.arrived p m).f60) (parseHeader f.payload) f.payload = .malformed := malformed
  have counted (p : Port) : ((s.dev.arrived p m).countMalformed p).missingSample i = dropped p := by
    rw [Dev.arrived, Dev.countGood, Dev.countMalformed, modCounters_modCounters]
    rfl
  have addressed (p : Port) (up : (s.dev.lnk.port p).up = true) (dest : field f.payload 0 2 = s.dev.tab.device.station) :
      exec (.frameReception p f m) s = .next (s.withDev (dropped p)) := by
    rw [exec_bayline run up check type long, classifyFrame_addressed (by exact source) (by exact dest), content, ← counted,
      ← missed_sample (d := (s.dev.arrived p m).countMalformed p) (consumer p)]
    rfl
  refine ⟨fun up => ?_, addressed .p2, fun up dest idle => ?_⟩
  · by_cases dest : field f.payload 0 2 = s.dev.tab.device.station
    · exact addressed .p1 up dest
    · rw [exec_bayline run (by exact up) check type long, classifyFrame_consumed (by exact source) (by exact dest) (consumer .p1), content,
        ← counted, ← missed_sample (d := (s.dev.arrived .p1 m).countMalformed .p1) (consumer .p1)]
      rfl
  · have noCommand : (parseHeader f.payload).kind = 3 → (s.dev.arrived .p2 m).tab.breakerAt (parseHeader f.payload).dest = none :=
      fun command => absurd (command.symm.trans kind) (by decide)
    rw [exec_bayline run (by exact up) check type long, classifyFrame_p2_other (by exact source) (by exact dest) noCommand, content,
      missed_sample (consumer .p2), forward_idle ((idle.arrived .p2 m).missingSample i)]
    rfl

end Sys2Proof.Machine

/-!
The screening of station commands (R12, R13): the reasons of `Dev.screenedFor` in the order in which the model looks for them,
the notice of a screened CLOSE, and O14 from both.
-/
namespace Sys2Proof.Machine

/-! ## The reasons -/

theorem any_toId_iff {n : Nat} {x : Nat} {p : Fin n → Bool} : (toId n x).any p = true ↔ ∃ i : Fin n, x = i.val ∧ p i = true := by
  unfold toId
  split
  next lt => exact ⟨fun h => ⟨⟨x, lt⟩, rfl, h⟩, fun ⟨i, e, h⟩ => by subst e; exact h⟩
  next ge => exact ⟨nofun, fun ⟨i, e, _⟩ => absurd (e ▸ i.isLt) ge⟩

/-- A close permissive holds exactly where its condition stands (R105). -/
theorem Dev.termHolds_iff (d : Dev) (t : PermTerm) : d.termHolds t = true ↔ d.termStands t := by
  unfold Dev.termHolds Dev.termStands
  split
  next cond => simp [any_toId_iff, cond]
  next cond => simp [any_toId_iff, cond]
  next cond => simp [any_toId_iff, cond]
  next cond => simp [any_toId_iff, cond]
  next c0 c1 c2 c3 =>
    refine ⟨nofun, ?_⟩
    rintro (⟨x, -, ⟨c, -⟩ | ⟨c, -⟩⟩ | ⟨y, -, ⟨c, -⟩ | ⟨c, -⟩⟩)
    exacts [(c0 c).elim, (c1 c).elim, (c2 c).elim, (c3 c).elim]

theorem Dev.permissive_iff (d : Dev) (b : Fin 24) : d.permissive b = false ↔ d.screenedFor b 4 := by
  unfold Dev.permissive BreakerEntry.terms Dev.screenedFor
  simp only [← Dev.termHolds_iff, Bool.and_eq_false_iff, Bool.not_eq_false', List.all_eq_false]

theorem BreakerRec.effective_unknown (r : BreakerRec) : r.effective = .unknown ↔ r.forced = .none ∧ r.reported = .unknown := by
  unfold BreakerRec.effective
  split <;> simp [*]

theorem Dev.bothLive_iff (d : Dev) (b : Fin 24) : d.bothLive b = true ↔ d.screenedFor b 5 := by
  unfold Dev.bothLive Dev.screenedFor
  cases (d.breakerCfg b).bus1 <;> cases (d.breakerCfg b).bus2 <;> simp

/-- The model looks for the reasons in the order of their codes. -/
theorem Dev.screenReason_eq (d : Dev) (b : Fin 24) [∀ k, Decidable (d.screenedFor b k)] : d.screenReason b =
    if d.screenedFor b 1 then some 1 else if d.screenedFor b 2 then some 2 else if d.screenedFor b 3 then some 3
    else if d.screenedFor b 4 then some 4 else if d.screenedFor b 5 then some 5 else none := by
  have locked : d.locked b = true ↔ d.screenedFor b 2 := decide_eq_true_iff
  have unknown : d.position b = .unknown ↔ d.screenedFor b 3 := BreakerRec.effective_unknown _
  have permissive : (!d.permissive b) = true ↔ d.screenedFor b 4 := by rw [← d.permissive_iff, Bool.not_eq_true']
  simp only [Dev.screenReason, locked, unknown, permissive, d.bothLive_iff,
    show (d.breaker b).claim.isSome = true ↔ d.screenedFor b 1 from Iff.rfl]

theorem Dev.screenedFor_range {d : Dev} {b : Fin 24} {k : Nat} (h : d.screenedFor b k) :
    k = 1 ∨ k = 2 ∨ k = 3 ∨ k = 4 ∨ k = 5 := by
  unfold Dev.screenedFor at h
  split at h <;> simp_all

/-- The lowest reason that stands is the one found. -/
theorem Dev.screenReason_lowest {d : Dev} {b : Fin 24} {k : Nat} (stands : d.screenedFor b k)
    (lowest : ∀ j, j < k → ¬ d.screenedFor b j) : d.screenReason b = some k := by
  classical
  rw [d.screenReason_eq]
  rcases Dev.screenedFor_range stands with rfl | rfl | rfl | rfl | rfl <;> simp [stands, lowest]

theorem Dev.screenReason_none {d : Dev} {b : Fin 24} (clear : ∀ k, ¬ d.screenedFor b k) : d.screenReason b = none := by
  classical
  rw [d.screenReason_eq]
  simp only [clear, if_false]

/-! ## The notice -/

/-- A notice leaves P1, its forward queue and the counts of LNK as they were. -/
theorem queueNotice_far (d : Dev) (kind subject : Nat) (detail : List Byte) :
    (d.queueNotice kind subject detail).lnk.p1 = d.lnk.p1 ∧ (d.queueNotice kind subject detail).lnk.fq21 = d.lnk.fq21 ∧
      (d.queueNotice kind subject detail).lnk.fq21Drop = d.lnk.fq21Drop ∧
      (d.queueNotice kind subject detail).lnk.screened = d.lnk.screened := by
  have run (e : Dev) (same : e.lnk = d.lnk) : (e.runPort .p2).lnk.p1 = d.lnk.p1 ∧ (e.runPort .p2).lnk.fq21 = d.lnk.fq21 ∧
      (e.runPort .p2).lnk.fq21Drop = d.lnk.fq21Drop ∧ (e.runPort .p2).lnk.screened = d.lnk.screened := by
    rw [← same]
    have kept := runPort_besideRun e .p2
    exact ⟨congrArg (fun x => x.lnk.p1) kept, congrArg (fun x => x.lnk.fq21) kept, congrArg (fun x => x.lnk.fq21Drop) kept,
      congrArg (fun x => x.lnk.screened) kept⟩
  unfold Dev.queueNotice
  split
  · exact ⟨rfl, rfl, rfl, rfl⟩
  · dsimp only
    split <;> exact run _ rfl

theorem queueNotice_unaddressed {d : Dev} (address : d.tab.device.notice = 0) (kind subject : Nat) (detail : List Byte) :
    d.queueNotice kind subject detail = d := if_pos address

/-- While P2 sends, a notice joins the tail of a queue that has room. -/
theorem queueNotice_busy {d : Dev} (address : d.tab.device.notice ≠ 0) (busy : d.portBusy .p2) (room : d.mgt.notices.length < 32)
    (kind subject : Nat) (detail : List Byte) : (d.queueNotice kind subject detail).mgt.notices = d.mgt.notices ++
      [{ kind := kind, subject := subject, ms := d.now, inst := d.sau.inst, detail := detail }] := by
  have notFull : decide (Config.noticeCapacity ≤ d.mgt.notices.length) = false := decide_eq_false (Nat.not_le.mpr room)
  rw [Dev.queueNotice, if_neg address]
  simp only [notFull, Bool.false_eq_true, if_false]
  exact congrArg (fun w => w.2.2.2.2) (runPort_waiting (p := .p2) (d := d.modMgt _) (.inl ⟨busy.up, busy.tx⟩))

/-! ## Screening -/

/-- The device with one more screened command counted. -/
def Dev.countScreened (d : Dev) : Dev := { d with lnk := { d.lnk with screened := sat32 d.lnk.screened } }

theorem screen_close_reason {d : Dev} {b : Fin 24} {r : Nat} (reason : d.screenReason b = some r) (id : Nat) (f : EthFrame) :
    d.screen b (.body (.command id .closeIt)) f = d.countScreened.screenedNotice b id r := by
  simp only [Dev.screen, reason, Dev.countScreened]

theorem screen_close_none {d : Dev} {b : Fin 24} (reason : d.screenReason b = none) (id : Nat) (f : EthFrame) :
    d.screen b (.body (.command id .closeIt)) f = d.forward .p2 f := by
  simp only [Dev.screen, reason]

/-- A screened command is a notice or a forwarded frame. -/
theorem screen_cases (d : Dev) (b : Fin 24) (id : Nat) (a : Action) (f : EthFrame) :
    (∃ r, d.screen b (.body (.command id a)) f = d.countScreened.screenedNotice b id r) ∨
      d.screen b (.body (.command id a)) f = d.forward .p2 f := by
  cases a with
  | openIt => exact .inr rfl
  | closeIt =>
    cases reason : d.screenReason b with
    | some r => exact .inl ⟨r, screen_close_reason reason id f⟩
    | none => exact .inr (screen_close_none reason id f)

/-- Screening changes LNK and MGT alone, and not what a busy P1 sends. -/
theorem screen_frame {d : Dev} (busy : d.portBusy .p1) (b : Fin 24) (id : Nat) (a : Action) (f : EthFrame) :
    (d.screen b (.body (.command id a)) f).lnk.p1.tx = d.lnk.p1.tx ∧ (d.screen b (.body (.command id a)) f).bare = d.bare := by
  rcases screen_cases d b id a f with ⟨r, noticed⟩ | forwarded
  · rw [noticed, Dev.screenedNotice]
    exact ⟨congrArg PortRec.tx (queueNotice_far _ _ _ _).1, bare_queueNotice _ _ _ _⟩
  · rw [forwarded]
    exact ⟨forward_held_tx (p := .p2) (.inl busy) f, bare_forward _ _ _⟩

/-- Settles O14: with the lowest standing reason the CLOSE becomes a notice, without one the frame goes on to FQ21. -/
theorem stationCommandsScreened : Obligations.StationCommandsScreened := by
  intro s f m b id a run up check type long kind source dest breaker busy content
  have busy' := busy.arrived .p2 m
  have screened : exec (.frameReception .p2 f m) s
      = .next (s.withDev ((s.dev.arrived .p2 m).screen b (.body (.command id a)) f)) := by
    rw [exec_bayline run (by exact up) check type long,
      classifyFrame_command (by exact source) (by exact dest) kind (by exact breaker), ← content]
    rfl
  obtain ⟨tx, bare⟩ := screen_frame busy' b id a f
  refine ⟨_, screened, rfl, tx.trans (arrived_tx s.dev .p2 .p1 m), bare.trans (arrived_bare s.dev .p2 m),
    fun k close stands lowest => ?_, fun passes => ?_⟩
  · subst close
    have reason : (s.dev.arrived .p2 m).screenReason b = some k := Dev.screenReason_lowest (d := s.dev) stands lowest
    rw [screen_close_reason reason]
    obtain ⟨-, queue, drop, count⟩ := queueNotice_far (s.dev.arrived .p2 m).countScreened 7 b.val (beBytes 2 id ++ beBytes 1 k ++ [0])
    refine ⟨queue, drop, count, fun address => ?_, fun address busy2 room => ?_⟩
    · exact congrArg (fun d => d.mgt.notices) (queueNotice_unaddressed (d := (s.dev.arrived .p2 m).countScreened) address _ _ _)
    · have busy2' := busy2.arrived .p2 m
      exact queueNotice_busy (d := (s.dev.arrived .p2 m).countScreened) address ⟨busy2'.up, busy2'.tx⟩ room _ _ _
  · have forwarded : (s.dev.arrived .p2 m).screen b (.body (.command id a)) f = (s.dev.arrived .p2 m).forward .p2 f := by
      cases a with
      | openIt => rfl
      | closeIt =>
        have clear := passes.resolve_left nofun
        have reason : (s.dev.arrived .p2 m).screenReason b = none := Dev.screenReason_none (d := s.dev) clear
        exact screen_close_none reason id f
    rw [forwarded]
    rcases Nat.lt_or_ge s.dev.lnk.fq21.length 32 with room | full
    · have queued := forward_p2_waiting (.inl busy') f room
      exact ⟨congrArg (fun w => w.2.2.2.1.2.2) queued, congrArg (fun w => w.2.2.2.2) queued,
        fun _ => ⟨congrArg (fun w => w.1.2) queued, congrArg (fun w => w.2.2.2.1.2.1) queued⟩,
        fun full => absurd room (Nat.not_lt.mpr full)⟩
    · rw [forward_p2_full (d := s.dev.arrived .p2 m) f full]
      exact ⟨rfl, rfl, fun room => absurd room (Nat.not_lt.mpr full), fun _ => ⟨rfl, rfl⟩⟩

end Sys2Proof.Machine

/-!
The arbiters at work (R2, R17, R18, R20): what each port takes when it becomes free, and with it the end of a transmission
(O15) and a link that goes DOWN or returns (O16).
-/
namespace Sys2Proof.Machine

/-! ## What a free P1 takes -/

/-- Once the arbiter has taken a frame, the port is busy and the rest of its run can only fill its slot. -/
theorem runPort_taken {d x : Dev} {p : Port} (take : d.arbitrate p = x) (up : (d.lnk.port p).up = true)
    (tx : (x.lnk.port p).tx.isSome = true) : (d.runPort p).besideSlot p = x.besideSlot p := by
  subst take
  exact pump_busy ((besideRun_up (besideRun_arbitrate d p)).trans up) tx pumpLimit

/-- What P1 sends and what then waits for it are as the arbiter left them. -/
theorem runPort_p1_taken {d x : Dev} (up : d.lnk.p1.up = true) (free : d.lnk.p1.tx = none) (take : d.takeP1 = x)
    (tx : x.lnk.p1.tx.isSome = true) :
    (d.runPort .p1).lnk.p1.tx = x.lnk.p1.tx ∧ (d.runPort .p1).lnk.p1.seq = x.lnk.p1.seq ∧
      (d.runPort .p1).lnk.protQueue = x.lnk.protQueue ∧ (d.runPort .p1).lnk.ctrlQueue = x.lnk.ctrlQueue ∧
      (d.runPort .p1).lnk.setpoints = x.lnk.setpoints ∧ (d.runPort .p1).lnk.fq21 = x.lnk.fq21 := by
  have kept := runPort_taken (p := .p1) ((arbitrate_p1 up free).trans take) up tx
  exact ⟨congrArg (fun y => y.lnk.p1.tx) kept, congrArg (fun y => y.lnk.p1.seq) kept, congrArg (fun y => y.lnk.protQueue) kept,
    congrArg (fun y => y.lnk.ctrlQueue) kept, congrArg (fun y => y.lnk.setpoints) kept, congrArg (fun y => y.lnk.fq21) kept⟩

section
variable {d : Dev} (up : d.lnk.p1.up = true) (free : d.lnk.p1.tx = none)
include up free

theorem runPort_p1_prot {x : Fin 24 × OutFrame} {xs : List (Fin 24 × OutFrame)} (prot : d.lnk.protQueue = x :: xs) :
    (d.runPort .p1).lnk.p1.tx = some (x.2.toEth .p1 d.lnk.p1.seq) ∧ (d.runPort .p1).lnk.p1.seq = d.lnk.p1.seq + 1 ∧
      (d.runPort .p1).lnk.protQueue = xs ∧ (d.runPort .p1).lnk.ctrlQueue = d.lnk.ctrlQueue ∧
      (d.runPort .p1).lnk.setpoints = d.lnk.setpoints ∧ (d.runPort .p1).lnk.fq21 = d.lnk.fq21 :=
  runPort_p1_taken up free (takeP1_prot prot) rfl

theorem runPort_p1_ctrl {x : Fin 24 × OutFrame} {xs : List (Fin 24 × OutFrame)} (prot : d.lnk.protQueue = [])
    (ctrl : d.lnk.ctrlQueue = x :: xs) :
    (d.runPort .p1).lnk.p1.tx = some (x.2.toEth .p1 d.lnk.p1.seq) ∧ (d.runPort .p1).lnk.p1.seq = d.lnk.p1.seq + 1 ∧
      (d.runPort .p1).lnk.protQueue = [] ∧ (d.runPort .p1).lnk.ctrlQueue = xs ∧
      (d.runPort .p1).lnk.setpoints = d.lnk.setpoints ∧ (d.runPort .p1).lnk.fq21 = d.lnk.fq21 := by
  rw [← prot]
  exact runPort_p1_taken up free (takeP1_ctrl prot ctrl) rfl

theorem runPort_p1_setpoint {x : Fin 6 × OutFrame} {xs : List (Fin 6 × OutFrame)} (prot : d.lnk.protQueue = [])
    (ctrl : d.lnk.ctrlQueue = []) (sets : d.lnk.setpoints = x :: xs) :
    (d.runPort .p1).lnk.p1.tx = some (x.2.toEth .p1 d.lnk.p1.seq) ∧ (d.runPort .p1).lnk.p1.seq = d.lnk.p1.seq + 1 ∧
      (d.runPort .p1).lnk.protQueue = [] ∧ (d.runPort .p1).lnk.ctrlQueue = [] ∧
      (d.runPort .p1).lnk.setpoints = xs ∧ (d.runPort .p1).lnk.fq21 = d.lnk.fq21 := by
  have taken := runPort_p1_taken up free (takeP1_setpoint prot ctrl sets) rfl
  exact ⟨taken.1, taken.2.1, taken.2.2.1.trans prot, taken.2.2.2.1.trans ctrl, taken.2.2.2.2⟩

theorem runPort_p1_slot {e : SlotEntry} (prot : d.lnk.protQueue = []) (ctrl : d.lnk.ctrlQueue = []) (sets : d.lnk.setpoints = [])
    (slot : d.lnk.p1.slot = some e) :
    (d.runPort .p1).lnk.p1.tx = some (e.frame.toEth .p1 d.lnk.p1.seq) ∧ (d.runPort .p1).lnk.p1.seq = d.lnk.p1.seq + 1 ∧
      (d.runPort .p1).lnk.protQueue = [] ∧ (d.runPort .p1).lnk.ctrlQueue = [] ∧
      (d.runPort .p1).lnk.setpoints = [] ∧ (d.runPort .p1).lnk.fq21 = d.lnk.fq21 := by
  have taken := runPort_p1_taken up free (takeP1_slot prot ctrl sets slot) rfl
  exact ⟨taken.1, taken.2.1, taken.2.2.1.trans prot, taken.2.2.2.1.trans ctrl, taken.2.2.2.2.1.trans sets, taken.2.2.2.2.2⟩

theorem runPort_p1_forward {x : EthFrame} {xs : List EthFrame} (prot : d.lnk.protQueue = []) (ctrl : d.lnk.ctrlQueue = [])
    (sets : d.lnk.setpoints = []) (slot : d.lnk.p1.slot = none) (queue : d.lnk.fq21 = x :: xs) :
    (d.runPort .p1).lnk.p1.tx = some x ∧ (d.runPort .p1).lnk.p1.seq = d.lnk.p1.seq ∧
      (d.runPort .p1).lnk.protQueue = [] ∧ (d.runPort .p1).lnk.ctrlQueue = [] ∧
      (d.runPort .p1).lnk.setpoints = [] ∧ (d.runPort .p1).lnk.fq21 = xs := by
  have taken := runPort_p1_taken up free (takeP1_forward prot ctrl sets slot queue) rfl
  exact ⟨taken.1, taken.2.1, taken.2.2.1.trans prot, taken.2.2.2.1.trans ctrl, taken.2.2.2.2.1.trans sets, taken.2.2.2.2.2⟩

end

/-- What the arbiter of a port keeps, and what every update of the port and of MGT keeps, the port's run keeps. -/
theorem runPort_keeps {P : Dev → Prop} (p : Port) (arb : ∀ d : Dev, P d → P (d.arbitrate p))
    (port : ∀ (d : Dev) f, P d → P (d.modPort p f)) (mgt : ∀ (d : Dev) f, P d → P (d.modMgt f)) {d : Dev} (h : P d) :
    P (d.runPort p) := by
  have segment {d d' : Dev} {e : SlotEntry} (next : d.nextSegment p = some (e, d')) (h : P d) : P d' := by
    unfold Dev.nextSegment at next
    split at next
    · cases next; exact port _ _ h
    · split at next
      · split at next
        · cases next; exact mgt _ _ h
        · cases next
      · cases next
  have pump (n : Nat) : ∀ d : Dev, P d → P (Dev.pump n p d) := by
    induction n with
    | zero => exact fun _ h => h
    | succ n ih =>
      intro d h
      unfold Dev.pump
      split
      · exact h
      · split
        · exact h
        next e d' next =>
          split
          · exact ih _ (arb _ (port _ _ (segment next h)))
          · exact ih _ (mgt _ _ (port _ _ (segment next h)))
  exact pump _ _ (arb _ h)

/-- Running P1 puts nothing into the queues of the part's own frames. -/
theorem runPort_p1_empty {d : Dev} (empty : d.lnk.protQueue = [] ∧ d.lnk.ctrlQueue = [] ∧ d.lnk.setpoints = []) :
    (d.runPort .p1).lnk.protQueue = [] ∧ (d.runPort .p1).lnk.ctrlQueue = [] ∧ (d.runPort .p1).lnk.setpoints = [] := by
  refine runPort_keeps (P := fun d => d.lnk.protQueue = [] ∧ d.lnk.ctrlQueue = [] ∧ d.lnk.setpoints = []) .p1
    (fun d empty => ?_) (fun _ _ h => h) (fun _ _ h => h) empty
  obtain ⟨prot, ctrl, sets⟩ := empty
  by_cases free : d.lnk.p1.up = true ∧ d.lnk.p1.tx = none
  · rw [arbitrate_p1 free.1 free.2]
    cases slot : d.lnk.p1.slot with
    | some e =>
      rw [takeP1_slot prot ctrl sets slot]
      exact ⟨prot, ctrl, sets⟩
    | none =>
      cases queue : d.lnk.fq21 with
      | nil =>
        rw [takeP1_nothing prot ctrl sets slot queue]
        exact ⟨prot, ctrl, sets⟩
      | cons x xs =>
        rw [takeP1_forward prot ctrl sets slot queue]
        exact ⟨prot, ctrl, sets⟩
  · have same : d.arbitrate .p1 = d := if_neg free
    rw [same]
    exact ⟨prot, ctrl, sets⟩

/-! ## What a free P2 takes -/

/-- What P2 sends and what then waits for it are as the arbiter left them. -/
theorem runPort_p2_taken {d x : Dev} (up : d.lnk.p2.up = true) (free : d.lnk.p2.tx = none) (take : d.takeP2 = x)
    (tx : x.lnk.p2.tx.isSome = true) :
    (d.runPort .p2).lnk.p2.tx = x.lnk.p2.tx ∧ (d.runPort .p2).mgt.notices = x.mgt.notices ∧
      (d.runPort .p2).lnk.fq12 = x.lnk.fq12 := by
  have kept := runPort_taken (p := .p2) ((arbitrate_p2 up free).trans take) up tx
  exact ⟨congrArg (fun y => y.lnk.p2.tx) kept, congrArg (fun y => y.mgt.notices) kept, congrArg (fun y => y.lnk.fq12) kept⟩

section
variable {d : Dev} (up : d.lnk.p2.up = true) (free : d.lnk.p2.tx = none)
include up free

theorem runPort_p2_slot {e : SlotEntry} (slot : d.lnk.p2.slot = some e) :
    (d.runPort .p2).lnk.p2.tx = some (e.frame.toEth .p2 d.lnk.p2.seq) ∧ (d.runPort .p2).mgt.notices = d.mgt.notices ∧
      (d.runPort .p2).lnk.fq12 = d.lnk.fq12 :=
  runPort_p2_taken up free (takeP2_slot slot) rfl

theorem runPort_p2_notice {n : Notice} {ns : List Notice} (slot : d.lnk.p2.slot = none) (address : d.tab.device.notice ≠ 0)
    (queue : d.mgt.notices = n :: ns) :
    (d.runPort .p2).lnk.p2.tx = some ((d.noticeFrame n).toEth .p2 d.lnk.p2.seq) ∧ (d.runPort .p2).mgt.notices = ns ∧
      (d.runPort .p2).lnk.fq12 = d.lnk.fq12 :=
  runPort_p2_taken up free (takeP2_notice slot address queue) rfl

theorem runPort_p2_forward {x : EthFrame} {xs : List EthFrame} (slot : d.lnk.p2.slot = none)
    (passed : d.tab.device.notice = 0 ∨ d.mgt.notices = []) (queue : d.lnk.fq12 = x :: xs) :
    (d.runPort .p2).lnk.p2.tx = some x ∧ (d.runPort .p2).mgt.notices = d.mgt.notices ∧ (d.runPort .p2).lnk.fq12 = xs :=
  runPort_p2_taken up free (takeP2_forward slot passed queue) rfl

end

/-! ## The end of a transmission -/

/-- A frame has been sent to the end, before the port's next is taken. -/
def Dev.sent (d : Dev) (p : Port) (f : EthFrame) : Dev :=
  (d.modPort p (fun r => { r with tx := none, lastOut := some f })).modCounters p (fun c => { c with txFrames := sat32 c.txFrames })

theorem exec_transmissionEnd {s : State} {p : Port} {f : EthFrame} (run : s.power = .running)
    (tx : (s.dev.lnk.port p).tx = some f) :
    exec (.transmissionEnd p) s = .next (s.withDev ((s.dev.sent p f).runPort p)) := by
  show s.whenRunning (fun d => d.transmissionEnd p) = _
  rw [State.whenRunning_eq run, Dev.transmissionEnd, tx]
  rfl

/-- Settles O15: the sent frame is counted, and the port takes what `takeP1` or `takeP2` names. -/
theorem endOfTransmission : Obligations.EndOfTransmission := by
  refine ⟨fun s f run up tx => ?_, fun s f run up tx => ?_⟩
  · set e := s.dev.sent .p1 f with he
    have kept := runPort_besideRun e .p1
    refine ⟨_, exec_transmissionEnd run tx, rfl, bare_runPort e .p1, besideRun_lastOut kept,
      congrArg PortCounters.txFrames (runPort_counters (d := e) (p := .p1) up), besideRun_other kept,
      congrArg (fun x => x.lnk.fq12) kept,
      fun x xs prot => runPort_p1_prot (d := e) up rfl prot,
      fun x xs prot ctrl => runPort_p1_ctrl (d := e) up rfl prot ctrl,
      fun x xs prot ctrl sets => runPort_p1_setpoint (d := e) up rfl prot ctrl sets, fun x prot ctrl sets slot => ?_,
      fun x xs prot ctrl sets slot queue => runPort_p1_forward (d := e) up rfl prot ctrl sets slot queue,
      fun prot ctrl sets slot queue quiet => ?_⟩
    · exact runPort_p1_slot (d := e) up rfl prot ctrl sets slot
    · have idle : e.portIdle .p1 := ⟨⟨quiet.reply, quiet.response⟩, up, rfl, slot, fun _ => ⟨prot, ctrl, sets, queue⟩, nofun⟩
      exact congrArg (fun x => x.lnk.p1.tx) idle.runPort
  · set e := s.dev.sent .p2 f with he
    have kept := runPort_besideRun e .p2
    refine ⟨_, exec_transmissionEnd run tx, rfl, bare_runPort e .p2, besideRun_lastOut kept,
      congrArg PortCounters.txFrames (runPort_counters (d := e) (p := .p2) up), besideRun_other kept,
      congrArg (fun x => x.lnk.fq21) kept,
      fun x slot => runPort_p2_slot (d := e) up rfl slot,
      fun n ns slot address queue => runPort_p2_notice (d := e) up rfl slot address queue,
      fun x xs slot passed queue => runPort_p2_forward (d := e) up rfl slot passed queue, fun slot passed queue quiet => ?_⟩
    have idle : e.portIdle .p2 := ⟨⟨quiet.reply, quiet.response⟩, up, rfl, slot, nofun, fun _ => ⟨passed, queue⟩⟩
    exact congrArg (fun x => x.lnk.p2.tx) idle.runPort

/-! ## A link that goes DOWN -/

/-- A link has gone DOWN: the frame sent and the segment in the slot are lost, each counted. -/
def Dev.cutOff (d : Dev) (p : Port) : Dev :=
  let x := (d.modPort p (fun r => { r with up := false, tx := none, slot := none })).modCounters p
    (fun c => { c with linkDown := sat32 c.linkDown })
  let y := if (d.lnk.port p).tx.isSome then x.countDiscarded p else x
  match (d.lnk.port p).slot with
  | some e => (y.countDiscarded p).segmentGone e
  | none => y

theorem linkDown_up {d : Dev} {p : Port} (up : (d.lnk.port p).up = true) :
    d.linkDown p = Dev.pump pumpLimit p (d.cutOff p) := if_pos up

theorem linkDown_down {d : Dev} {p : Port} (down : (d.lnk.port p).up = false) : d.linkDown p = d := if_neg (by simp [down])

theorem cutOff_besideDiscards (d : Dev) (p : Port) : (d.cutOff p).besideDiscards p =
    ((d.modPort p (fun r => { r with up := false, tx := none, slot := none })).modCounters p
      (fun c => { c with linkDown := sat32 c.linkDown })).besideDiscards p := by
  unfold Dev.cutOff
  dsimp only
  split <;> split <;> simp only [besideDiscards_segmentGone, besideDiscards_countDiscarded]

theorem cutOff_txDiscarded (d : Dev) (p : Port) : ((d.cutOff p).lnk.port p).counters.txDiscarded =
    match (d.lnk.port p).tx, (d.lnk.port p).slot with
    | none, none => (d.lnk.port p).counters.txDiscarded
    | some _, none | none, some _ => sat32 (d.lnk.port p).counters.txDiscarded
    | some _, some _ => sat32 (sat32 (d.lnk.port p).counters.txDiscarded) := by
  unfold Dev.cutOff
  cases (d.lnk.port p).tx <;> cases (d.lnk.port p).slot <;> cases p <;> rfl

theorem sat32_sat32 (n : Nat) : sat32 (sat32 n) = min (n + 2) 4294967295 := by
  simp only [sat32, Config.saturate32]
  omega

/-- The loss of a link leaves nothing to be placed where nothing was. -/
theorem Dev.noSegment.cutOff {d : Dev} {p : Port} (h : d.noSegment p) : (d.cutOff p).noSegment p := by
  obtain ⟨reply, response⟩ := h
  unfold Dev.cutOff
  dsimp only
  split
  next e slot =>
    have gone (x : Dev) (same : (x.lnk.port p).reply = none ∧ x.mgt = d.mgt) : ((x.countDiscarded p).segmentGone e).noSegment p := by
      refine ⟨by cases p <;> exact same.1, fun q r service here => response q r ?_ here⟩
      change (if e.endsService then none else x.mgt.service) = some _ at service
      split at service
      · cases service
      · rwa [same.2] at service
    split <;> exact gone _ ⟨by cases p <;> exact reply, rfl⟩
  next => split <;> exact ⟨by cases p <;> exact reply, response⟩

theorem State.withDev_dev (s : State) : s.withDev s.dev = s := rfl

theorem exec_linkDown {s : State} (run : s.power = .running) (p : Port) :
    exec (.linkDown p) s = .next (s.withDev (s.dev.linkDown p)) :=
  State.whenRunning_eq run (fun d => d.linkDown p)

theorem exec_linkUp {s : State} (run : s.power = .running) (p : Port) :
    exec (.linkUp p) s = .next (s.withDev (s.dev.linkUp p)) :=
  State.whenRunning_eq run (fun d => d.linkUp p)

/-- What the loss of a link leaves of its port, and that it leaves the queues and the other port. -/
theorem linkDown_frame {d : Dev} {p : Port} (up : (d.lnk.port p).up = true) :
    ((d.linkDown p).lnk.port p).up = false ∧ ((d.linkDown p).lnk.port p).tx = none ∧ ((d.linkDown p).lnk.port p).slot = none ∧
      ((d.linkDown p).lnk.port p).counters.linkDown = sat32 (d.lnk.port p).counters.linkDown ∧
      (d.linkDown p).waiting = d.waiting ∧ (d.linkDown p).lnk.port p.other = d.lnk.port p.other := by
  have down : ((d.cutOff p).lnk.port p).up = false := by
    have cut := congrArg (fun x => (x.lnk.port p).up) (cutOff_besideDiscards d p)
    cases p <;> exact cut
  have kept := (pump_down down pumpLimit).trans (cutOff_besideDiscards d p)
  rw [linkDown_up up]
  have up := congrArg (fun x => (x.lnk.port p).up) kept
  have tx := congrArg (fun x => (x.lnk.port p).tx) kept
  have slot := congrArg (fun x => (x.lnk.port p).slot) kept
  have count := congrArg (fun x => (x.lnk.port p).counters.linkDown) kept
  have waiting := congrArg Dev.waiting kept
  have other := congrArg (fun x => x.lnk.port p.other) kept
  cases p <;> exact ⟨up, tx, slot, count, waiting, other⟩

/-- With nothing to be placed in the slot, only the frame sent and the segment in the slot are discarded. -/
theorem linkDown_txDiscarded {d : Dev} {p : Port} (up : (d.lnk.port p).up = true) (quiet : d.noSegment p) :
    ((d.linkDown p).lnk.port p).counters.txDiscarded = ((d.cutOff p).lnk.port p).counters.txDiscarded := by
  rw [linkDown_up up, pump_none (nextSegment_none quiet.cutOff)]

theorem linkDown_bare (d : Dev) (p : Port) : (d.linkDown p).bare = d.bare := by
  by_cases up : (d.lnk.port p).up = true
  · have cut : ((d.cutOff p).besideDiscards p).bare = d.bare := by rw [cutOff_besideDiscards]; rfl
    change (d.cutOff p).bare = d.bare at cut
    rw [linkDown_up up, bare_pump, cut]
  · rw [Dev.linkDown, if_neg up]

/-! ## A link that returns -/

/-- The device with a link UP again, before the port's next frame is taken. -/
def Dev.joinedUp (d : Dev) (p : Port) : Dev := d.modPort p (fun r => { r with up := true })

theorem linkUp_down {d : Dev} {p : Port} (down : (d.lnk.port p).up = false) : d.linkUp p = (d.joinedUp p).runPort p := by
  rw [Dev.linkUp, if_neg (by simp [down])]
  rfl

theorem linkUp_up {d : Dev} {p : Port} (up : (d.lnk.port p).up = true) : d.linkUp p = d := if_pos up

/-- Settles O16: a link that goes DOWN discards what `cutOff` discards, one that returns runs its port. -/
theorem linkDownAndUp : Obligations.LinkDownAndUp := by
  intro s p run
  refine ⟨fun up => ?_, fun down => ?_, fun up => ?_, fun down => ?_⟩
  · obtain ⟨isDown, tx, slot, count, waiting, other⟩ := linkDown_frame up
    have discarded (quiet : s.dev.noSegment p) := (linkDown_txDiscarded up quiet).trans (cutOff_txDiscarded s.dev p)
    refine ⟨_, exec_linkDown run p, linkDown_bare s.dev p, isDown, tx, slot, count, fun quiet noTx noSlot => ?_,
      fun quiet one => ?_, fun quiet someTx someSlot => ?_, congrArg (fun w => w.1.1) waiting, congrArg (fun w => w.1.2) waiting,
      congrArg (fun w => w.2.1.1) waiting, congrArg (fun w => w.2.1.2) waiting, congrArg (fun w => w.2.2.1) waiting, other⟩
    · exact (discarded quiet).trans (by rw [noTx, noSlot])
    · refine (discarded quiet).trans ?_
      rcases one with ⟨someTx, noSlot⟩ | ⟨noTx, someSlot⟩
      · obtain ⟨f, hf⟩ := Option.isSome_iff_exists.mp someTx
        rw [hf, noSlot]
        rfl
      · obtain ⟨e, he⟩ := Option.isSome_iff_exists.mp someSlot
        rw [noTx, he]
        rfl
    · obtain ⟨f, hf⟩ := Option.isSome_iff_exists.mp someTx
      obtain ⟨e, he⟩ := Option.isSome_iff_exists.mp someSlot
      refine (discarded quiet).trans ?_
      rw [hf, he]
      exact sat32_sat32 _
  · rw [exec_linkDown run, linkDown_down down, State.withDev_dev]
  · rw [exec_linkUp run, linkUp_up up, State.withDev_dev]
  · rw [exec_linkUp run, linkUp_down down]
    have kept := runPort_besideRun (s.dev.joinedUp p) p
    have up : ((s.dev.joinedUp p).lnk.port p).up = true := by cases p <;> rfl
    refine ⟨_, rfl, bare_runPort _ p, (besideRun_up kept).trans up, ?_, ?_, fun hp free => ?_, fun hp free => ?_⟩
    · refine (runPort_counters up).trans ?_
      cases p <;> rfl
    · refine (besideRun_other kept).trans ?_
      cases p <;> rfl
    · subst hp
      set e := s.dev.joinedUp .p1 with he
      refine ⟨congrArg (fun x => x.lnk.fq12) kept, fun x xs prot => ?_, fun x xs prot ctrl => ?_, fun x xs prot ctrl sets => ?_,
        fun prot ctrl sets => ?_⟩
      · obtain ⟨tx, -, queues⟩ := runPort_p1_prot (d := e) up free prot
        exact ⟨tx, queues⟩
      · obtain ⟨tx, -, queues⟩ := runPort_p1_ctrl (d := e) up free prot ctrl
        exact ⟨tx, queues⟩
      · obtain ⟨tx, -, queues⟩ := runPort_p1_setpoint (d := e) up free prot ctrl sets
        exact ⟨tx, queues⟩
      · obtain ⟨prot', ctrl', sets'⟩ := runPort_p1_empty (d := e) ⟨prot, ctrl, sets⟩
        refine ⟨prot', ctrl', sets', fun x slot => ?_, fun x xs slot queue => ?_, fun slot queue quiet => ?_⟩
        · obtain ⟨tx, -, -, -, -, fq21⟩ := runPort_p1_slot (d := e) up free prot ctrl sets slot
          exact ⟨tx, fq21⟩
        · obtain ⟨tx, -, -, -, -, fq21⟩ := runPort_p1_forward (d := e) up free prot ctrl sets slot queue
          exact ⟨tx, fq21⟩
        · have idle : e.portIdle .p1 := ⟨⟨quiet.reply, quiet.response⟩, up, free, slot, fun _ => ⟨prot, ctrl, sets, queue⟩, nofun⟩
          exact (congrArg (fun x => x.lnk.p1.tx) idle.runPort).trans free
    · subst hp
      set e := s.dev.joinedUp .p2 with he
      refine ⟨congrArg (fun x => x.lnk.fq21) kept, fun x slot => runPort_p2_slot (d := e) up free slot,
        fun n ns slot address queue => runPort_p2_notice (d := e) up free slot address queue,
        fun x xs slot passed queue => runPort_p2_forward (d := e) up free slot passed queue, fun slot passed queue quiet => ?_⟩
      have idle : e.portIdle .p2 := ⟨⟨quiet.reply, quiet.response⟩, up, free, slot, nofun, fun _ => ⟨passed, queue⟩⟩
      exact (congrArg (fun x => x.lnk.p2.tx) idle.runPort).trans free

end Sys2Proof.Machine

/-!
The hand-overs of STATUS and GENSET frames (R10, R94, R155), with O17, and the repeats of commands (R14, R108), with O23.
-/
namespace Sys2Proof.Machine

/-! ## Hand-overs -/

/-- A judgement of a set keeps what its moves and failures keep. -/
theorem Inner.judgeGen {P : Dev → Prop} (S : Inner P) {d : Dev} (g : Fin 6) (manual was : Bool) (h : P d) :
    P (d.judgeGen g manual was) := by
  unfold Dev.judgeGen
  dsimp only
  split
  · exact S.failGen _ _ (S.drawTie h)
  · exact S.failGen _ _ h
  · exact S.failGen _ _ h
  · split
    · exact S.judgeStarting _ h
    · exact S.judgeStopping _ h
    · exact keeps_ite (S.push _ h) h
    · exact h

/-- A breaker's record with what a STATUS frame reports (R94). -/
def BreakerRec.withStatus (r : BreakerRec) (pos : Position) (spring inLocal : Bool) (now : Count32) : BreakerRec :=
  { r with reported := pos, inLocal := inLocal, spring := spring, ageFrom := now, aged := false }

/-- A set's record with what a GENSET frame reports (R155). -/
def GenRec.withGenset (r : GenRec) (e : Engine) (ready manual : Bool) (now : Count32) : GenRec :=
  { r with engine := e, ready := ready, manual := manual, ageFrom := now, aged := false }

/-- Apart from the report itself, the taking of a STATUS frame leaves the fixed part alone. -/
theorem takeStatus_fixed (d : Dev) (b : Fin 24) (pos : Position) (spring inLocal : Bool) :
    (d.takeStatus b pos spring inLocal).fixed = (d.modBreaker b (fun r => r.withStatus pos spring inLocal d.now)).fixed := by
  have S := fixed_reports (d.modBreaker b (fun r => r.withStatus pos spring inLocal d.now)).fixed
  unfold Dev.takeStatus
  dsimp only
  split
  · split
    · exact S.confirm b pos (S.reportPosition b true (S.drawTie rfl))
    · exact S.reportPosition b true (S.confirm b pos (S.drawTie rfl))
  · exact S.confirm b pos (S.reportPosition b _ rfl)

/-- Apart from the report itself, the taking of a GENSET frame leaves the fixed part alone. -/
theorem takeGenset_fixed (d : Dev) (g : Fin 6) (e : Engine) (ready manual : Bool) :
    (d.takeGenset g e ready manual).fixed = (d.modGen g (fun r => r.withGenset e ready manual d.now)).fixed := by
  have S := fixed_reports (d.modGen g (fun r => r.withGenset e ready manual d.now)).fixed
  unfold Dev.takeGenset
  dsimp only
  split
  · rfl
  · exact S.toInner.judgeGen g _ _ rfl

/-- What is left as it was when a frame that is handed over has been taken and forwarded: all of `Dev.fixed` but LNK and MGT. -/
structure Dev.reportsAs (x e : Dev) : Prop where
  now      : x.now = e.now
  breakers : ∀ b, (x.breaker b).report = (e.breaker b).report
  gens     : ∀ g, (x.gen g).report = (e.gen g).report
  meas     : x.meas = e.meas
  sau      : x.sau = e.sau
  buses    : x.swm.buses = e.swm.buses
  tab      : ∀ c, { x.tab with causes := c } = { e.tab with causes := c }

theorem Dev.reportsAs.forward {x e : Dev} (h : x.fixed = e.fixed) (p : Port) (f : EthFrame) : (x.forward p f).reportsAs e := by
  have bare := bare_forward x p f
  have gen (g : Fin 6) : (x.forward p f).gen g = x.gen g := congrArg (fun y => y.gen g) bare
  have tab : (x.forward p f).tab = x.tab := congrArg (fun y => y.tab) bare
  refine ⟨(congrArg (fun y => y.now) bare).trans (congrArg Fixed.clock h), fun b => ?_, fun g => ?_,
    (congrArg (fun y => y.meas) bare).trans (congrArg Fixed.meas h), (congrArg (fun y => y.sau) bare).trans (congrArg Fixed.sau h),
    (congrArg (fun y => y.swm.buses) bare).trans (congrArg Fixed.buses h), fun c => ?_⟩
  · rw [breaker_of_bare bare]
    exact congrFun (congrArg Fixed.breakers h) b
  · rw [gen]
    exact congrFun (congrArg Fixed.gens h) g
  · rw [tab]
    exact congrArg (fun t => { t with causes := c }) (congrArg Fixed.tab h)

/-- A frame of a breaker's bay or a set's controller is handed over, and goes on to P2. -/
theorem exec_consumed {s : State} {f : EthFrame} {b : Body} {k : Consumer} (run : s.power = .running) (carries : s.carries f b)
    (consumer : s.dev.tab.consumer (parseHeader f.payload) = some k) (forwards : s.dev.tab.forwards k = true) (m : Bool) :
    exec (.frameReception .p1 f m) s
      = .next (s.withDev (((s.dev.arrived .p1 m).handOver k b).flush.forward .p1 f)) := by
  have content : content (Config.modulus (s.dev.arrived .p1 m).f60) (parseHeader f.payload) f.payload = .body b := carries.content
  rw [exec_bayline run (by exact carries.up) carries.check carries.type carries.length,
    classifyFrame_consumed (by exact carries.source) (by exact carries.dest) (by exact consumer), content]
  simp only [Dev.consume, show (s.dev.arrived .p1 m).tab.forwards k = true from forwards, if_true]

theorem consumer_status {t : Tables} {bs : List Byte} {b : Fin 24} (kind : field bs 4 1 = 2)
    (breaker : t.breakerAt (field bs 2 2) = some b) : t.consumer (parseHeader bs) = some (.breaker b) := by
  unfold Tables.consumer
  rw [show (parseHeader bs).kind = 2 from kind]
  exact congrArg (Option.map Consumer.breaker) breaker

theorem consumer_genset {t : Tables} {bs : List Byte} {g : Fin 6} (kind : field bs 4 1 = 4)
    (gen : t.genAt (field bs 2 2) = some g) : t.consumer (parseHeader bs) = some (.gen g) := by
  unfold Tables.consumer
  rw [show (parseHeader bs).kind = 4 from kind]
  exact congrArg (Option.map Consumer.gen) gen

/-- What a STATUS frame reports is what the breaker then holds, and no other breaker's report changes. -/
theorem takeStatus_reports {d x : Dev} {b : Fin 24} {pos : Position} {spring inLocal : Bool}
    (h : x.reportsAs (d.modBreaker b (fun r => r.withStatus pos spring inLocal d.now))) :
    (x.breaker b).report = ((d.breaker b).withStatus pos spring inLocal d.now).report ∧
      ∀ y, y ≠ b → (x.breaker y).report = (d.breaker y).report := by
  refine ⟨(h.breakers b).trans ?_, fun y other => (h.breakers y).trans ?_⟩
  · rw [Dev.modBreaker_breaker_same]
  · rw [Dev.modBreaker_breaker_ne _ _ _ _ other]

/-- What a GENSET frame reports is what the set's record then holds, and no other set's report changes. -/
theorem takeGenset_reports {d x : Dev} {g : Fin 6} {e : Engine} {ready manual : Bool}
    (h : x.reportsAs (d.modGen g (fun r => r.withGenset e ready manual d.now))) :
    (x.gen g).report = ((d.gen g).withGenset e ready manual d.now).report ∧
      ∀ y, y ≠ g → (x.gen y).report = (d.gen y).report := by
  refine ⟨(h.gens g).trans ?_, fun y other => (h.gens y).trans ?_⟩
  · rw [Dev.modGen_gen_same]
  · rw [Dev.modGen_gen_ne _ _ _ _ other]

/-- Settles O17: the report is what the hand-over changes of `Dev.fixed`, and the taking of what follows from it changes no more. -/
theorem fieldReportsTaken : Obligations.FieldReportsTaken := by
  refine ⟨fun s f m b pos spring inLocal run carries kind breaker => ?_, fun s f m g e ready manual run carries kind gen => ?_⟩
  · set d := s.dev.arrived .p1 m with hd
    have kept : ((d.takeStatus b pos spring inLocal).flush.forward .p1 f).reportsAs
        (d.modBreaker b (fun r => r.withStatus pos spring inLocal d.now)) :=
      Dev.reportsAs.forward ((flush_fixed _).trans (takeStatus_fixed d b pos spring inLocal)) .p1 f
    obtain ⟨own, others⟩ := takeStatus_reports kept
    simp only [BreakerRec.report, Prod.mk.injEq] at own others
    obtain ⟨reported, forced, isLocal, springs, age, aged, -⟩ := own
    exact ⟨_, exec_consumed run carries (consumer_status kind breaker) rfl m, rfl, kept.now, reported, springs, isLocal, age, aged,
      forced, fun x other => ⟨(others x other).1, (others x other).2.2.2.2.1⟩, kept.meas, kept.sau, kept.buses, kept.tab s.dev.tab.causes⟩
  · set d := s.dev.arrived .p1 m with hd
    have kept : ((d.takeGenset g e ready manual).flush.forward .p1 f).reportsAs
        (d.modGen g (fun r => r.withGenset e ready manual d.now)) :=
      Dev.reportsAs.forward ((flush_fixed _).trans (takeGenset_fixed d g e ready manual)) .p1 f
    obtain ⟨own, others⟩ := takeGenset_reports kept
    simp only [GenRec.report, Prod.mk.injEq] at own others
    obtain ⟨engine, isReady, isManual, age, aged⟩ := own
    exact ⟨_, exec_consumed run carries (consumer_genset kind gen) rfl m, rfl, kept.now, engine, isReady, isManual, age, aged,
      fun x other => ⟨(others x other).1, (others x other).2.2.2.1⟩, kept.meas, kept.sau, kept.buses, kept.tab s.dev.tab.causes⟩

/-! ## Repeats of commands -/

/-- The device with a COMMAND frame in its queue, and none of its breaker in the other (R14). -/
def Dev.withCommand (d : Dev) (b : Fin 24) (prot : Bool) (f : OutFrame) : Dev :=
  { d with lnk :=
    if prot then { d.lnk with protQueue := putKey b f d.lnk.protQueue, ctrlQueue := dropKey b d.lnk.ctrlQueue }
    else { d.lnk with ctrlQueue := putKey b f d.lnk.ctrlQueue, protQueue := dropKey b d.lnk.protQueue } }

/-- While P1 takes no frame, a COMMAND frame waits in its queue. -/
theorem enqueueCommand_held {d : Dev} (h : d.portHeld .p1) (b : Fin 24) (prot : Bool) (f : OutFrame) :
    (d.enqueueCommand b prot f).waiting = (d.withCommand b prot f).waiting := by
  have held : (d.withCommand b prot f).portHeld .p1 := by
    cases prot <;> exact h.imp (fun busy => ⟨busy.up, busy.tx⟩) id
  exact runPort_waiting held

theorem commandRepeat_due {d : Dev} {b : Fin 24} {r : CmdRecord} (record : (d.breaker b).record = some r)
    (due : reached r.nextRepeat d.now = true) : d.commandRepeat b =
      (d.modBreaker b (fun x => { x with record := some r.afterRepeat })).enqueueCommand b r.prot (d.commandFrame b r.afterRepeat) := by
  simp only [Dev.commandRepeat, record, due, if_true]
  rfl

/-- A record's update and the enqueueing of its frame touch its own breaker, LNK and MGT alone. -/
theorem enqueueCommand_frame (d : Dev) (b : Fin 24) (g : BreakerRec → BreakerRec) (prot : Bool) (f : OutFrame) :
    ((d.modBreaker b g).enqueueCommand b prot f).breaker b = g (d.breaker b) ∧
      (∀ x, x ≠ b → ((d.modBreaker b g).enqueueCommand b prot f).breaker x = d.breaker x) ∧
      ((d.modBreaker b g).enqueueCommand b prot f).shell = d.shell := by
  have bare := bare_enqueueCommand (d.modBreaker b g) b prot f
  exact ⟨(breaker_of_bare bare b).trans (Dev.modBreaker_breaker_same _ _ _),
    fun x other => (breaker_of_bare bare x).trans (Dev.modBreaker_breaker_ne _ _ _ _ other),
    (shell_of_bare bare).trans (shell_modBreaker d b g)⟩

/-- Settles O23: the record moves on to its next copy, which is enqueued while P1 sends. -/
theorem commandRepeatSent : Obligations.CommandRepeatSent := by
  intro s b r run record due busy r'
  have next : r.afterRepeat = r' := by
    unfold CmdRecord.afterRepeat r'
    congr 2
    rcases r.repeatNo with _ | _ | _ | _ | _ | n <;> rfl
  have ran : exec (.commandRepeat b) s = .next (s.withDev
      ((s.dev.modBreaker b (fun x => { x with record := some r' })).enqueueCommand b r.prot (s.dev.commandFrame b r'))) := by
    rw [← next, ← commandRepeat_due record due]
    exact State.whenRunning_eq run (fun d => d.commandRepeat b)
  have busy' : (s.dev.modBreaker b (fun x => { x with record := some r' })).portBusy .p1 := ⟨busy.up, busy.tx⟩
  have queued := enqueueCommand_held (.inl busy') b r.prot (s.dev.commandFrame b r')
  obtain ⟨own, others, shell⟩ := enqueueCommand_frame s.dev b (fun x => { x with record := some r' }) r.prot (s.dev.commandFrame b r')
  refine ⟨_, ran, own, others, shell, fun prot => ?_, fun ctrl => ?_⟩
  · rw [prot] at queued ⊢
    exact ⟨congrArg (fun w => w.2.1.1) queued, congrArg (fun w => w.2.1.2) queued⟩
  · rw [ctrl] at queued ⊢
    exact ⟨congrArg (fun w => w.2.1.2) queued, congrArg (fun w => w.2.1.1) queued⟩

end Sys2Proof.Machine

/-!
Replies and responses at an idle port (R16, R199, R200, R217), with the segments of an ECHO (O37), and the requests that are
turned away at arrival or as they are taken into service (O35).
-/
namespace Sys2Proof.Machine

/-! ## Segments at a free port -/

/-- The device with a frame of the part's own taken for transmission by a port (R19). -/
theorem startOwn_eq (d : Dev) (p : Port) (f : OutFrame) :
    d.startOwn p f = d.modPort p (fun r => { r with tx := some (f.toEth p r.seq), seq := r.seq + 1 }) := rfl

/-- A segment that ends nothing leaves MGT as it was. -/
theorem segmentGone_reply (d : Dev) (f : OutFrame) : d.segmentGone { frame := f, endsService := false, restart := false } = d := by
  simp [Dev.segmentGone, Dev.modMgt]

theorem modPort_modPort (d : Dev) (p : Port) (f g : PortRec → PortRec) :
    (d.modPort p f).modPort p g = d.modPort p (fun r => g (f r)) := by cases p <;> rfl

theorem modPort_same {d : Dev} {p : Port} {f : PortRec → PortRec} (h : f (d.lnk.port p) = d.lnk.port p) : d.modPort p f = d := by
  cases p with
  | p1 => exact congrArg (fun r => ({ d with lnk := { d.lnk with p1 := r } } : Dev)) h
  | p2 => exact congrArg (fun r => ({ d with lnk := { d.lnk with p2 := r } } : Dev)) h

theorem PortRec.noReply {r : PortRec} (h : r.reply = none) : ({ r with reply := none } : PortRec) = r := by
  cases r
  cases h
  rfl

/-- An immediate reply of an idle port is sent at once. -/
theorem immediateReply_idle {d : Dev} {p : Port} (h : d.portIdle p) (f : OutFrame) : d.immediateReply p f = d.startOwn p f := by
  set e := d.modPort p (fun r => { r with reply := some f }) with he
  have free : e.portFree p := by
    obtain ⟨⟨-, -⟩, up, tx, slot, queues1, queues2⟩ := h
    cases p <;> exact ⟨up, tx, slot, queues1, queues2⟩
  have next : e.nextSegment p = some ({ frame := f, endsService := false, restart := false }, d) := by
    have reply : (e.lnk.port p).reply = some f := by cases p <;> rfl
    have back : e.modPort p (fun r => { r with reply := none }) = d :=
      (modPort_modPort d p _ _).trans (modPort_same (PortRec.noReply h.reply))
    rw [Dev.nextSegment, reply, back]
  have quiet : (d.startOwn p f).noSegment p := by
    obtain ⟨⟨reply, response⟩, -⟩ := h
    cases p <;> exact ⟨reply, response⟩
  have fresh : ¬ (d.lnk.port p).reply.isSome = true := by simp [h.reply]
  rw [Dev.immediateReply, if_neg fresh, Dev.runPort, free.arbitrate, pumpLimit, free.pump_succ h.free next, segmentGone_reply,
    ← startOwn_eq, pump_none (nextSegment_none quiet)]

/-! ## Responses that are already gathered -/

/-- The segment that is placed next of a response whose remaining data are `bs`, and the response after it. -/
theorem nextSegment_bytes {d : Dev} {q : Request} {r : Response} {bs : List Byte} (reply : (d.lnk.port q.port).reply = none)
    (service : d.mgt.service = some ⟨q, .sending r⟩) (fresh : r.placed = false) (samples : r.capture = none)
    (gathered : d.gather r.items r.carry = ([], bs)) :
    d.nextSegment q.port = some
      ({ frame := d.segmentFrame q r.result r.index (decide (bs.length ≤ 1024)) (bs.take 1024)
         endsService := decide (bs.length ≤ 1024), restart := decide (bs.length ≤ 1024) && r.restart },
       d.setService (some ⟨q, .sending { r with
         items := [], carry := bs.drop 1024, index := r.index + 1, placed := decide (bs.length ≤ 1024) }⟩)) := by
  have data : d.nextData r = (r.result, bs.take 1024, decide (bs.length ≤ 1024), { r with items := [], carry := bs.drop 1024 }) := by
    simp only [Dev.nextData, samples, gathered, Config.segmentBytes, true_and]
  simp only [Dev.nextSegment, reply, service, fresh, and_self, if_true, data]

theorem gather_bytes (d : Dev) (bs : List Byte) : d.gather [.bytes bs] [] = ([], bs) := rfl

theorem gather_nil (d : Dev) (bs : List Byte) : d.gather [] bs = ([], bs) := rfl

theorem Dev.portFree.setService {d : Dev} {p : Port} (h : d.portFree p) (x : Option Service) : (d.setService x).portFree p :=
  ⟨h.up, h.tx, h.slot, h.queues1, h.queues2⟩

/-- A response of one segment leaves an idle port at once, and its request leaves service. -/
theorem respond_short {d : Dev} {q : Request} {bs : List Byte} (idle : d.portIdle q.port) (short : bs.length ≤ 1024) :
    d.respond q (okBytes bs) = (d.startOwn q.port (d.segmentFrame q 0 0 true bs)).setService none := by
  set e := d.setService (some ⟨q, .sending (okBytes bs)⟩) with he
  have next := nextSegment_bytes (d := e) (r := okBytes bs) idle.reply rfl rfl rfl (gather_bytes e bs)
  simp only [decide_eq_true short, List.take_of_length_le short, Bool.true_and] at next
  have free : e.portFree q.port := idle.free.setService _
  have gone (x : Option Service) :
      ((e.setService x).startOwn q.port (d.segmentFrame q 0 0 true bs)).segmentGone
        { frame := d.segmentFrame q 0 0 true bs, endsService := true, restart := false }
        = (d.startOwn q.port (d.segmentFrame q 0 0 true bs)).setService none := by
    simp only [Dev.segmentGone, Dev.setService, Dev.modMgt, Bool.or_false, if_true]
    rfl
  have quiet : ((d.startOwn q.port (d.segmentFrame q 0 0 true bs)).setService none).noSegment q.port := by
    refine ⟨?_, nofun⟩
    have reply := idle.reply
    revert reply
    cases q.port <;> exact id
  rw [Dev.respond, Dev.runPort, free.arbitrate, pumpLimit, free.pump_succ (free.setService _) next]
  exact (congrArg _ (gone _)).trans (pump_none (nextSegment_none quiet) _)

theorem pump_slot {d : Dev} {p : Port} (filled : (d.lnk.port p).slot.isSome = true) (n : Nat) : Dev.pump n p d = d := by
  cases n with
  | zero => rfl
  | succ n => rw [Dev.pump, if_pos filled]

/-- A busy port's empty slot is filled once. -/
theorem pump_fill {d d' : Dev} {p : Port} {e : SlotEntry} (slot : (d.lnk.port p).slot = none) (next : d.nextSegment p = some (e, d'))
    (busy : d'.portBusy p) (n : Nat) : Dev.pump (n + 1) p d = d'.modPort p (fun r => { r with slot := some e }) := by
  have sending : ((d'.modPort p (fun r => { r with slot := some e })).lnk.port p).tx.isSome = true := by
    rw [Dev.modPort_lnk, Lnk.port_modPort_same]
    exact busy.tx
  have filled : ((d'.modPort p (fun r => { r with slot := some e })).lnk.port p).slot.isSome = true := by
    rw [Dev.modPort_lnk, Lnk.port_modPort_same]
    rfl
  rw [Dev.pump, if_neg (by simp [slot]), next]
  dsimp only
  rw [if_pos busy.up, arbitrate_busy sending, pump_slot filled]

theorem startOwn_port (d : Dev) (p : Port) (f : OutFrame) : (d.startOwn p f).lnk.port p =
    { d.lnk.port p with tx := some (f.toEth p (d.lnk.port p).seq), seq := (d.lnk.port p).seq + 1 } := by
  cases p <;> rfl

/-- Of a response of two segments the first leaves an idle port at once, and the second waits in the slot. -/
theorem respond_long {d : Dev} {q : Request} {bs : List Byte} (idle : d.portIdle q.port) (long : 1024 < bs.length)
    (two : bs.length ≤ 2048) : d.respond q (okBytes bs) =
      (((d.startOwn q.port (d.segmentFrame q 0 0 false (bs.take 1024))).modPort q.port
        (fun r => { r with slot := some ⟨d.segmentFrame q 0 1 true (bs.drop 1024), true, false⟩ })).setService
          (some ⟨q, .sending { result := 0, carry := (bs.drop 1024).drop 1024, index := 2, placed := true }⟩)) := by
  have rest : (bs.drop 1024).length ≤ 1024 := by rw [List.length_drop]; omega
  set e := d.setService (some ⟨q, .sending (okBytes bs)⟩) with he
  have first := nextSegment_bytes (d := e) (r := okBytes bs) idle.reply rfl rfl rfl (gather_bytes e bs)
  simp only [decide_eq_false (Nat.not_le.mpr long), Bool.false_and] at first
  have free : e.portFree q.port := idle.free.setService _
  set y := (e.setService (some ⟨q, .sending { result := 0, carry := bs.drop 1024, index := 1 }⟩)).startOwn q.port
    (d.segmentFrame q 0 0 false (bs.take 1024)) with hy
  have port : y.lnk.port q.port = { d.lnk.port q.port with
      tx := some ((d.segmentFrame q 0 0 false (bs.take 1024)).toEth q.port (d.lnk.port q.port).seq)
      seq := (d.lnk.port q.port).seq + 1 } := startOwn_port _ _ _
  have second := nextSegment_bytes (d := y) (q := q) (r := { result := 0, carry := bs.drop 1024, index := 1 })
    (by rw [port]; exact idle.reply) rfl rfl rfl (gather_nil y _)
  simp only [decide_eq_true rest, List.take_of_length_le rest, Bool.true_and] at second
  have busy (x : Option Service) : (y.setService x).portBusy q.port :=
    ⟨(congrArg PortRec.up port).trans idle.up, congrArg (fun r => r.tx.isSome) port⟩
  have slot : (y.lnk.port q.port).slot = none := (congrArg PortRec.slot port).trans idle.slot
  rw [Dev.respond, Dev.runPort, free.arbitrate, pumpLimit, free.pump_succ (free.setService _) first]
  refine (congrArg _ (segmentGone_reply _ _)).trans ?_
  exact (pump_fill slot second (busy _) _).trans rfl

/-! ## The segments of an ECHO -/

/-- The segment frames of a device are those of any with its station address and mode. -/
theorem segmentFrame_of_bare {d e : Dev} (h : d.bare = e.bare) (q : Request) (result index : Nat) (last : Bool) (bs : List Byte) :
    d.segmentFrame q result index last bs = e.segmentFrame q result index last bs := by
  have tab : d.tab = e.tab := congrArg (fun x => x.tab) h
  have mode : d.mode = e.mode := congrArg (fun x => x.mode) h
  simp only [Dev.segmentFrame, Dev.build, tab, mode]

/-- The taking of a request into service leaves an idle port idle. -/
theorem Dev.portIdle.taking {d : Dev} {p : Port} (h : d.portIdle p) (q : Request) (rest : List Request) :
    (d.taking q rest).portIdle p := by
  have notices : (d.taking q rest).mgt.notices = d.mgt.notices := by
    unfold Dev.taking Dev.serviceSelection Dev.endSelection
    split
    · rfl
    · split <;> rfl
  have service : (d.taking q rest).mgt.service = some ⟨q, .acting⟩ := by
    unfold Dev.taking Dev.serviceSelection Dev.endSelection
    split
    · rfl
    · split <;> rfl
  have tab : (d.taking q rest).tab = d.tab := congrArg (fun x => x.tab) (taking_bare d q rest)
  refine ⟨⟨by rw [taking_lnk]; exact h.reply, fun _ _ here => ?_⟩, by rw [taking_lnk]; exact h.up, by rw [taking_lnk]; exact h.tx,
    by rw [taking_lnk]; exact h.slot, by rw [taking_lnk]; exact h.queues1, by rw [tab, notices, taking_lnk]; exact h.queues2⟩
  rw [service] at here
  cases here

theorem taking_queue (d : Dev) (q : Request) (rest : List Request) : (d.taking q rest).mgt.queue = rest := by
  unfold Dev.taking Dev.serviceSelection Dev.endSelection
  split
  · rfl
  · split <;> rfl

theorem exec_echo {s : State} {q : Request} {rest : List Request} (serves : s.serves q rest (2, 0)) :
    exec .echo s = .next (s.withDev ((s.dev.taking q rest).respond q (okBytes q.params))) := by
  show s.whenRunning (fun d => d.serveRow (2, 0) Dev.actEcho) = _
  rw [State.whenRunning_eq serves.running, serves.serveRow_quiet Dev.actEcho serves.work]
  rfl

/-- Settles O37: the data leave as one segment, or as two of which the second waits. -/
theorem echoSegments : Obligations.EchoSegments := by
  intro s q rest serves idle most
  set d := s.dev.taking q rest with hd
  have idle' : d.portIdle q.port := idle.taking q rest
  have port : d.lnk.port q.port = s.dev.lnk.port q.port := by rw [hd, taking_lnk]
  have frame (index : Nat) (last : Bool) (bs : List Byte) : d.segmentFrame q 0 index last bs = s.dev.segmentFrame q 0 index last bs :=
    segmentFrame_of_bare (taking_bare s.dev q rest) q 0 index last bs
  refine ⟨_, exec_echo serves, rfl, (bare_respond _ _ _).trans (taking_bare _ _ _), ?_⟩
  rcases Nat.lt_or_ge 1024 q.params.length with long | short
  · have sent := startOwn_port d q.port (d.segmentFrame q 0 0 false (q.params.take 1024))
    have filled := Lnk.port_modPort_same (d.startOwn q.port (d.segmentFrame q 0 0 false (q.params.take 1024))).lnk q.port
      (fun r => { r with slot := some ⟨d.segmentFrame q 0 1 true (q.params.drop 1024), true, false⟩ })
    rw [sent, port, frame, frame] at filled
    rw [respond_long idle' long (by omega), frame, frame]
    exact ⟨taking_queue s.dev q rest, congrArg PortRec.seq filled, fun short => absurd long (Nat.not_lt.mpr short),
      fun _ => ⟨congrArg PortRec.tx filled, congrArg (fun r => r.slot.map SlotEntry.frame) filled, rfl⟩⟩
  · have sent := startOwn_port d q.port (d.segmentFrame q 0 0 true q.params)
    rw [port, frame] at sent
    rw [respond_short idle' short, frame]
    exact ⟨taking_queue s.dev q rest, congrArg PortRec.seq sent,
      fun _ => ⟨rfl, (congrArg PortRec.slot sent).trans idle.slot, congrArg PortRec.tx sent⟩,
      fun long => absurd long (Nat.not_lt.mpr short)⟩

end Sys2Proof.Machine

/-!
Requests that are turned away (R199 to R201, R210, R211, R217): at arrival, by an ABORT, for short parameters and for want of
a matching selection, and O35 from these.
-/
namespace Sys2Proof.Machine

/-! ## Arrival -/

theorem takeRequest_room {d : Dev} {q : Request} (noAbort : q.code ≠ 13) (room : d.mgt.queue.length < 4) :
    d.takeRequest q = d.modMgt (fun m => { m with queue := m.queue ++ [q] }) := (if_neg noAbort).trans (if_pos room)

theorem takeRequest_full {d : Dev} {q : Request} (noAbort : q.code ≠ 13) (full : 4 ≤ d.mgt.queue.length) :
    d.takeRequest q = d.immediateReply q.port (d.segmentFrame q resBusy 0 true []) :=
  (if_neg noAbort).trans (if_neg (Nat.not_lt.mpr full))

theorem takeRequest_abort {d : Dev} {q : Request} (abort : q.code = 13) : d.takeRequest q = d.abort q := if_pos abort

/-- While a reply waits for the slot, another is dropped and counted. -/
theorem immediateReply_dropped {d : Dev} {p : Port} (waits : (d.lnk.port p).reply.isSome = true) (f : OutFrame) :
    d.immediateReply p f = d.modMgt (fun m => { m with dropped := sat32 m.dropped }) := if_pos waits

theorem arrived_port (d : Dev) (p : Port) (m : Bool) : (d.arrived p m).lnk.port p =
    { d.lnk.port p with counters := { (d.lnk.port p).counters with rxGood := sat32 (d.lnk.port p).counters.rxGood } } := by
  cases p <;> rfl

/-- A well-formed request that is addressed to the part is MGT's, on either port. -/
theorem exec_request {s : State} {f : EthFrame} {p : Port} {code tag : Nat} {params : List Byte} (run : s.power = .running)
    (up : (s.dev.lnk.port p).up = true) (check : f.checkOk = true) (type : f.etherType = Config.baylineType)
    (long : 10 ≤ f.payload.length) (source : field f.payload 2 2 ≠ s.dev.tab.device.station)
    (dest : field f.payload 0 2 = s.dev.tab.device.station)
    (body : content (Config.modulus s.dev.f60) (parseHeader f.payload) f.payload = .body (.request code tag params)) (m : Bool) :
    exec (.frameReception p f m) s = .next (s.withDev ((s.dev.arrived p m).takeRequest
      { port := p, src := field f.payload 2 2, code := code, tag := tag, params := params })) := by
  have body' : content (Config.modulus (s.dev.arrived p m).f60) (parseHeader f.payload) f.payload
      = .body (.request code tag params) := body
  rw [exec_bayline run up check type long, classifyFrame_addressed (by exact source) (by exact dest), body']
  simp only [Dev.addressed]
  rfl

/-! ## ABORT -/

/-- A selection ends exactly when it is the originator's (R210). -/
theorem endSelection_eq (d : Dev) (src : Nat) : d.endSelection src = d.modMgt (fun m => { m with
    selection := if m.selection.any (fun x => decide (x.owner = src)) then none else m.selection }) := by
  unfold Dev.endSelection
  split
  next mine => simp only [Dev.modMgt, mine, if_true]
  next other => simp only [Dev.modMgt, other, if_false, Bool.false_eq_true]

/-- An ABORT has acted, before its reply arises. -/
def Dev.aborted (d : Dev) (q : Request) : Dev :=
  let d := d.modMgt (fun m => { m with queue := m.queue.filter (fun x => decide (x.src ≠ q.src)) })
  Dev.endSelection (match d.stoppable q.src with
    | some p => d.stopResponse p
    | none => d) q.src

/-- What an ABORT answers: how many waiting requests it removed, and whether it stopped a response. -/
def Dev.abortReply (d : Dev) (q : Request) : OutFrame :=
  d.segmentFrame q 0 0 true (beBytes 1 (d.mgt.queue.filter (fun x => decide (x.src = q.src))).length
    ++ beBytes 1 (bit (d.stoppable q.src).isSome))

theorem aborted_bare (d : Dev) (q : Request) : (d.aborted q).bare = d.bare := by
  unfold Dev.aborted
  rw [endSelection_eq]
  split <;> rfl

theorem abort_eq (d : Dev) (q : Request) : d.abort q = (d.aborted q).immediateReply q.port (d.abortReply q) := by
  have frame := segmentFrame_of_bare (aborted_bare d q) q 0 0 true (beBytes 1 (d.mgt.queue.filter (fun x => decide (x.src = q.src))).length
    ++ beBytes 1 (bit (d.stoppable q.src).isSome))
  rw [Dev.abortReply, ← frame]
  rfl

/-- The response that an ABORT stops is that of the request in service, when it is the originator's and not one still owed. -/
theorem stoppable_iff (d : Dev) (src : Nat) : (d.stoppable src).isSome = true ↔ ∃ x, d.mgt.service = some x ∧ x.req.src = src ∧
    (x.stage = .acting ∨ ∃ r, x.stage = .sending r ∧ (r.owed = true → r.placed = true)) := by
  unfold Dev.stoppable
  split
  next q r service => simp [service]
  next q service => simp [service]
  next sending acting =>
    refine ⟨nofun, ?_⟩
    rintro ⟨⟨q, stage⟩, service, -, rfl | ⟨r, rfl, -⟩⟩
    · exact absurd service (acting q)
    · exact absurd service (sending q r)

/-- What an ABORT does to MGT and to the ports: of a port at most what its slot's segment ends. -/
theorem aborted_effect (d : Dev) (q : Request) :
    (d.aborted q).mgt.queue = d.mgt.queue.filter (fun x => decide (x.src ≠ q.src)) ∧
      (d.aborted q).mgt.selection
        = (if d.mgt.selection.any (fun x => decide (x.owner = q.src)) then none else d.mgt.selection) ∧
      (d.aborted q).mgt.service = (if (d.stoppable q.src).isSome then none else d.mgt.service) ∧
      (d.aborted q).mgt.notices = d.mgt.notices ∧
      ((d.aborted q).lnk.protQueue, (d.aborted q).lnk.ctrlQueue, (d.aborted q).lnk.setpoints, (d.aborted q).lnk.fq12,
        (d.aborted q).lnk.fq21) = (d.lnk.protQueue, d.lnk.ctrlQueue, d.lnk.setpoints, d.lnk.fq12, d.lnk.fq21) ∧
      ∀ p, ∃ ends : SlotEntry → Bool, (d.aborted q).lnk.port p = { d.lnk.port p with
        slot := (d.lnk.port p).slot.map (fun e => { e with endsService := ends e }) } := by
  have kept (r : PortRec) : r = { r with slot := r.slot.map (fun e => { e with endsService := e.endsService }) } := by
    cases r
    simp
  unfold Dev.aborted
  rw [endSelection_eq]
  change _ ∧ _ ∧ (_ = if (d.stoppable q.src).isSome = true then none else d.mgt.service) ∧ _
  dsimp only
  have same : (d.modMgt (fun m => { m with queue := m.queue.filter (fun x => decide (x.src ≠ q.src)) })).stoppable q.src
      = d.stoppable q.src := rfl
  rw [same]
  cases d.stoppable q.src with
  | none => exact ⟨rfl, rfl, rfl, rfl, rfl, fun p => ⟨SlotEntry.endsService, kept _⟩⟩
  | some p' =>
    refine ⟨rfl, rfl, rfl, rfl, ?_, fun p => ?_⟩
    · cases p' <;> rfl
    · cases p <;> cases p'
      · exact ⟨fun _ => false, rfl⟩
      · exact ⟨SlotEntry.endsService, kept _⟩
      · exact ⟨SlotEntry.endsService, kept _⟩
      · exact ⟨fun _ => false, rfl⟩

/-- An ABORT leaves an idle port idle. -/
theorem Dev.portIdle.aborted {d : Dev} {p : Port} (h : d.portIdle p) (q : Request) : (d.aborted q).portIdle p := by
  obtain ⟨-, -, service, notices, queues, ports⟩ := aborted_effect d q
  obtain ⟨ends, port⟩ := ports p
  simp only [Prod.mk.injEq] at queues
  obtain ⟨prot, ctrl, sets, fq12, fq21⟩ := queues
  have tab : (d.aborted q).tab = d.tab := congrArg (fun x => x.tab) (aborted_bare d q)
  refine ⟨⟨(congrArg PortRec.reply port).trans h.reply, fun q' r serving here => ?_⟩, (congrArg PortRec.up port).trans h.up,
    (congrArg PortRec.tx port).trans h.tx, (congrArg PortRec.slot port).trans (by simp [h.slot]), ?_, ?_⟩
  · rw [service] at serving
    split at serving
    · cases serving
    · exact h.response q' r serving here
  · rw [prot, ctrl, sets, fq21]
    exact h.queues1
  · rw [tab, notices, fq12]
    exact h.queues2

/-- An ABORT on an idle port acts and is answered at once. -/
theorem abort_idle {d : Dev} {q : Request} (idle : d.portIdle q.port) : d.abort q = (d.aborted q).startOwn q.port (d.abortReply q) := by
  rw [abort_eq, immediateReply_idle (idle.aborted q)]

/-- The answer to an ABORT from an idle port is sent from that port; the other port's slot holds the frame it held. -/
theorem aborted_answered (d : Dev) (q : Request) (p : Port) :
    ((((d.aborted q).startOwn p (d.abortReply q)).lnk.port p).seq = (d.lnk.port p).seq + 1 ∧
      (((d.aborted q).startOwn p (d.abortReply q)).lnk.port p).tx = some ((d.abortReply q).toEth p (d.lnk.port p).seq)) ∧
    (((d.aborted q).startOwn p (d.abortReply q)).lnk.port p.other).slot.map SlotEntry.frame
      = (d.lnk.port p.other).slot.map SlotEntry.frame := by
  obtain ⟨-, -, -, -, -, ports⟩ := aborted_effect d q
  obtain ⟨_, own⟩ := ports p
  obtain ⟨_, other⟩ := ports p.other
  have seq : ((d.aborted q).lnk.port p).seq = (d.lnk.port p).seq := congrArg (fun r => r.seq) own
  have sent := startOwn_port (d.aborted q) p (d.abortReply q)
  rw [seq] at sent
  have slot : ((d.aborted q).lnk.port p.other).slot.map SlotEntry.frame = (d.lnk.port p.other).slot.map SlotEntry.frame := by
    rw [congrArg (fun r => r.slot) other, Option.map_map]
    rfl
  exact ⟨⟨congrArg (fun r => r.seq) sent, congrArg (fun r => r.tx) sent⟩, by cases p <;> exact slot⟩

/-- An ABORT ends its originator's selection and no other's. -/
theorem aborted_selection (d : Dev) (q : Request) :
    (∀ x, d.mgt.selection = some x → x.owner = q.src → (d.aborted q).mgt.selection = none) ∧
    ((∀ x, d.mgt.selection = some x → x.owner ≠ q.src) → (d.aborted q).mgt.selection = d.mgt.selection) := by
  obtain ⟨-, selection, -⟩ := aborted_effect d q
  refine ⟨fun x own mine => ?_, fun others => ?_⟩
  · rw [selection, own]
    exact if_pos (decide_eq_true mine)
  · rw [selection]
    cases own : d.mgt.selection with
    | none => rfl
    | some x => exact if_neg fun mine => others x own (of_decide_eq_true mine)

/-- An ABORT that stops a response says so, and takes it out of service. -/
theorem aborted_stops {d : Dev} {q : Request} {stopped : Bool} (stops : (d.stoppable q.src).isSome = stopped) :
    (d.aborted q).mgt.service = (if stopped then none else d.mgt.service) ∧
    d.abortReply q = d.segmentFrame q 0 0 true (beBytes 1 (d.mgt.queue.filter (fun x => decide (x.src = q.src))).length
      ++ beBytes 1 (bit stopped)) := by
  obtain ⟨-, -, service, -⟩ := aborted_effect d q
  subst stops
  exact ⟨service, rfl⟩

/-! ## Short parameters -/

/-- The serving of a row whose request is too short is answered LENGTH, whatever the row's action (R201). -/
theorem serveRow_short {d : Dev} {q : Request} {rest : List Request} (free : d.mgt.service = none) (head : d.mgt.queue = q :: rest)
    (short : q.params.length < fixedLength q.code) (act : Dev → Request → Response × Dev) :
    d.serveRow q.row act = (d.taking q rest).respond q (refuse resLength) := by
  have entered : d.enterService q.row = some (q, d.taking q rest) := by
    simp only [Dev.enterService, free, head, if_true]
    rfl
  simp only [Dev.serveRow, entered, short, if_true]

/-- A target's command serves the OPERATE of that target. -/
theorem exec_operate (n : Nat) (known : n ≤ 12) : ∃ act, ∀ s, exec (rowCommand (10, n)) s
    = s.whenRunning (fun d => d.serveOperate n act) := by
  interval_cases n <;> exact ⟨_, fun _ => rfl⟩

/-- WRITE turns a short request away as every other row does. -/
theorem serveWrite_short {d : Dev} {q : Request} {rest : List Request} (free : d.mgt.service = none) (head : d.mgt.queue = q :: rest)
    (row : q.row = (4, 0)) (short : q.params.length < fixedLength q.code) :
    d.serveWrite = (d.taking q rest).respond q (refuse resLength) := by
  have entered : d.enterService (4, 0) = some (q, d.taking q rest) := by
    simp only [Dev.enterService, free, head, row, if_true]
    rfl
  have code : q.code = 4 := Request.row_code row (by decide)
  rw [code] at short
  simp only [Dev.serveWrite, entered, short, if_true]

/-- A known code but WRITE and OPERATE has a row of its own, which serves it by `Dev.serveRow`. -/
theorem exec_known (n : Nat) (known : knownCode n = true) (noWrite : n ≠ 4) (noOperate : n ≠ 10) :
    ∃ act, ∀ s, exec (rowCommand (n, 0)) s = s.whenRunning (fun d => d.serveRow (n, 0) act) := by
  obtain ⟨low, high, noAbort⟩ := of_decide_eq_true known
  have codes : n = 1 ∨ n = 2 ∨ n = 3 ∨ n = 5 ∨ n = 6 ∨ n = 7 ∨ n = 8 ∨ n = 9 ∨ n = 11 ∨ n = 12 ∨ n = 14 ∨ n = 15 ∨ n = 16 ∨
      n = 17 ∨ n = 18 := by omega
  rcases codes with rfl | rfl | rfl | rfl | rfl | rfl | rfl | rfl | rfl | rfl | rfl | rfl | rfl | rfl | rfl <;>
    exact ⟨_, fun _ => rfl⟩

/-- The rows that serve requests: UNKNOWN_REQUEST's, an operate target's, or that of another known code. -/
theorem Request.row_cases (q : Request) : q.row = (0, 0) ∨ (∃ n, n ≤ 12 ∧ q.row = (10, n)) ∨
    ∃ n, knownCode n = true ∧ n ≠ 10 ∧ q.row = (n, 0) := by
  unfold Request.row
  split
  next => exact .inl rfl
  next known =>
    split
    · split
      next target => exact .inr (.inl ⟨_, target.2, rfl⟩)
      next => exact .inl rfl
    next noOperate => exact .inr (.inr ⟨_, by simpa using known, noOperate, rfl⟩)

/-- Whatever its row, a request whose parameters are too short is answered LENGTH and does nothing else. -/
theorem exec_short {s : State} {q : Request} {rest : List Request} (run : s.power = .running) (free : s.dev.mgt.service = none)
    (head : s.dev.mgt.queue = q :: rest) (short : q.params.length < fixedLength q.code) :
    exec (rowCommand q.row) s = .next (s.withDev ((s.dev.taking q rest).respond q (refuse resLength))) := by
  have served := serveRow_short free head short
  rcases q.row_cases with row | ⟨n, known, row⟩ | ⟨n, known, noOperate, row⟩ <;> rw [row] at served ⊢
  · rw [← served Dev.actUnknown]
    exact State.whenRunning_eq run (fun d => d.serveRow (0, 0) Dev.actUnknown)
  · obtain ⟨act, serves⟩ := exec_operate n known
    rw [serves, State.whenRunning_eq run, Dev.serveOperate, served]
  · by_cases write : n = 4
    · subst write
      rw [← serveWrite_short free head row short]
      exact State.whenRunning_eq run Dev.serveWrite
    · obtain ⟨act, serves⟩ := exec_known n known write noOperate
      rw [serves, State.whenRunning_eq run, served]

/-- The taking into service of a request that is too short ends its originator's selection, a SELECT's too. -/
theorem taking_short {d : Dev} {q : Request} (rest : List Request) (short : q.params.length < fixedLength q.code) :
    d.taking q rest = d.modMgt (fun m => { m with
      queue := rest, service := some ⟨q, .acting⟩
      selection := if m.selection.any (fun x => decide (x.owner = q.src)) then none else m.selection }) := by
  have noSelect : ¬ (q.code = 9 ∧ fixedLength 9 ≤ q.params.length) := by
    rintro ⟨code, long⟩
    rw [code] at short
    exact absurd short (Nat.not_lt.mpr long)
  rw [Dev.taking, Dev.serviceSelection, if_neg noSelect, endSelection_eq]
  rfl

/-! ## OPERATE without a selection -/

theorem selectionMatches_false {x : Option Selection} {q : Request}
    (other : ∀ y, x = some y → y.owner = q.src → y.target = q.target → y.object ≠ q.object) : selectionMatches x q = false := by
  cases x with
  | none => rfl
  | some y => exact decide_eq_false fun ⟨owner, target, object⟩ => other y rfl owner target object

/-- An OPERATE that is not selected is answered NOT_SELECTED and does nothing else, whatever its target. -/
theorem exec_operate_unselected {s : State} {q : Request} {rest : List Request} {n : Nat} (serves : s.serves q rest (10, n))
    (unselected : selectionMatches s.dev.mgt.selection q = false) :
    exec (rowCommand (10, n)) s = .next (s.withDev ((s.dev.taking q rest).respond q (refuse resNotSelected))) := by
  obtain ⟨act, operates⟩ := exec_operate n (Request.row_target serves.row).2.1
  rw [operates, State.whenRunning_eq serves.running, Dev.serveOperate, serves.serveRow]
  simp only [unselected, Bool.false_eq_true, if_false]
  rw [Dev.flush_of_no_work _ serves.work]

/-- Settles O35: the arrivals are `takeRequest`'s branches, and what is refused at its serving is so whatever its row. -/
theorem requestsTurnedAway : Obligations.RequestsTurnedAway := by
  refine ⟨fun s f m p code tag params run up check type long source dest body => ?_, fun s q rest run free head short => ?_,
    fun s q rest n serves other => exec_operate_unselected serves (selectionMatches_false other)⟩
  · intro q seq d
    have arrives := exec_request run up check type long source dest body m
    have port := arrived_port s.dev p m
    refine ⟨fun noAbort room => ?_, fun noAbort full idle => ?_, fun noAbort full waits => ?_, fun abort idle => ?_⟩
    · rw [arrives, takeRequest_room noAbort (by exact room)]
      rfl
    · rw [arrives, takeRequest_full noAbort (by exact full), immediateReply_idle (idle.arrived p m)]
      cases p <;> rfl
    · rw [arrives, takeRequest_full noAbort (by exact full), immediateReply_dropped (by rw [port]; exact waits)]
      rfl
    · intro mine stops answer
      rw [takeRequest_abort (by exact abort), abort_idle (by exact idle.arrived p m)] at arrives
      obtain ⟨queue, -⟩ := aborted_effect (s.dev.arrived p m) q
      obtain ⟨own, others⟩ := aborted_selection (s.dev.arrived p m) q
      obtain ⟨⟨count, sent⟩, slot⟩ := aborted_answered (s.dev.arrived p m) q p
      have here : ((s.dev.arrived p m).lnk.port p).seq = seq := congrArg (fun r => r.seq) port
      have there : ((s.dev.arrived p m).lnk.port p.other).slot = (s.dev.lnk.port p.other).slot := by cases p <;> rfl
      have stopped : ((s.dev.arrived p m).stoppable q.src).isSome = true ↔ stops := stoppable_iff s.dev q.src
      rw [here] at count sent
      refine ⟨_, arrives, rfl, aborted_bare (s.dev.arrived p m) q, queue, own, others, count, fun ended => ?_, fun stands => ?_,
        slot.trans (congrArg _ there)⟩
      · obtain ⟨service, reply⟩ := aborted_stops (stopped.mpr ended)
        exact ⟨service, sent.trans (congrArg (fun f => some (OutFrame.toEth f p seq)) reply)⟩
      · obtain ⟨service, reply⟩ := aborted_stops (Bool.eq_false_iff.mpr (mt stopped.mp stands))
        exact ⟨service, sent.trans (congrArg (fun f => some (OutFrame.toEth f p seq)) reply)⟩
  · rw [exec_short run free head short, taking_short rest short]
    rfl

end Sys2Proof.Machine

/-!
A setpoint period (R170, R176): what the corrections, the unloading and the SETPOINT frames leave alone, what then waits for a busy
P1, and O30 from these.
-/
namespace Sys2Proof.Machine

/-! ## What the operations of a period leave alone -/

/-- What PAR keeps beside its sets, its demand, the grant and the synchroniser: settling, the determination and the periods. -/
def Par.periodic (p : Par) : Par :=
  { settled := p.settled, islanded := p.islanded, firstPeriod := p.firstPeriod, periods := p.periods }

/-- What neither a request to SWM nor a move, a failure or a correction of a set touches. -/
def Dev.besideSets (d : Dev) : Dev := { d.shell with par := d.par.periodic }

theorem besideSets_of_shell {d e : Dev} (h : d.shell = e.shell) : d.besideSets = e.besideSets :=
  congrArg (fun x => { x with par := x.par.periodic }) h

theorem besideSets_of_bare {d e : Dev} (h : d.bare = e.bare) : d.besideSets = e.besideSets := besideSets_of_shell (shell_of_bare h)

theorem besideSets_modGen (d : Dev) (g : Fin 6) (f : GenRec → GenRec) : (d.modGen g f).besideSets = d.besideSets := rfl

/-- A choice whose one branch changes nothing here. -/
theorem besideSets_ite {c : Prop} [Decidable c] {x d : Dev} (h : x.besideSets = d.besideSets) :
    (if c then x else d).besideSets = d.besideSets := by
  split
  · exact h
  · rfl

theorem besideSets_leaveGrant (d : Dev) (s : GenState) : (d.leaveGrant s).besideSets = d.besideSets := by
  unfold Dev.leaveGrant
  split <;> rfl

theorem besideSets_moveGen (d : Dev) (g : Fin 6) (s : GenState) (f : GenRec → GenRec) :
    (d.moveGen g s f).besideSets = d.besideSets :=
  calc (d.moveGen g s f).besideSets
    _ = _ := besideSets_ite rfl
    _ = _ := besideSets_ite rfl
    _ = _ := besideSets_ite rfl
    _ = (d.modGen g _).besideSets := besideSets_ite (besideSets_leaveGrant _ s)
    _ = d.besideSets := besideSets_modGen d g _

theorem besideSets_request (d : Dev) (q : OpRequest) : (d.request q).2.besideSets = d.besideSets :=
  besideSets_of_shell (shell_request d q)

theorem besideSets_openUnjudged (d : Dev) (g : Fin 6) (b : Fin 24) : (d.openUnjudged g b).besideSets = d.besideSets := by
  have asked := besideSets_request d { breaker := b, action := .openIt, requester := .block .par }
  unfold Dev.openUnjudged
  split
  next answered => rwa [answered] at asked
  next answered => rwa [answered] at asked

theorem besideSets_openFailed (d : Dev) (g : Fin 6) (b : Fin 24) : (d.openFailed g b).besideSets = d.besideSets := by
  unfold Dev.openFailed
  split
  · rfl
  · rfl
  · exact besideSets_ite (besideSets_openUnjudged d g b)

theorem besideSets_failGen (d : Dev) (g : Fin 6) (reason : GenReason) : (d.failGen g reason).besideSets = d.besideSets := by
  unfold Dev.failGen
  dsimp only
  split
  · rfl
  · rw [Dev.genNotice, besideSets_of_bare (bare_queueNotice _ _ _ _), besideSets_of_bare (bare_recordError _ _ _), besideSets_modGen]
    have opened (x : Dev) : (match x.genBreaker g with
        | some b => (x.openFailed g b).releaseClaim b .par
        | none => x).besideSets = x.besideSets := by
      split
      · rw [besideSets_of_shell (shell_releaseClaim _ _ _), besideSets_openFailed]
      · rfl
    split
    · exact (opened _).trans (besideSets_moveGen d g _ _)
    · rw [besideSets_of_bare (bare_sendSetpoint _ _ _ _ _)]
      exact (opened _).trans (besideSets_moveGen d g _ _)

theorem besideSets_toStopped (d : Dev) (g : Fin 6) : (d.toStopped g).besideSets = d.besideSets := by
  unfold Dev.toStopped
  dsimp only
  split
  · rw [besideSets_of_shell (shell_releaseClaim _ _ _), besideSets_moveGen]
  · rw [besideSets_moveGen]

theorem besideSets_toStopping (d : Dev) (g : Fin 6) : (d.toStopping g).besideSets = d.besideSets := by
  have judged (x : Dev) : (x.judgeStopping g).besideSets = x.besideSets := by
    unfold Dev.judgeStopping
    split
    · exact besideSets_toStopped x g
    · exact besideSets_failGen x g .engine
    · rfl
  rw [Dev.toStopping, judged, besideSets_of_bare (bare_sendSetpoint _ _ _ _ _), besideSets_moveGen]

theorem besideSets_toCooldown (d : Dev) (g : Fin 6) : (d.toCooldown g).besideSets = d.besideSets :=
  (besideSets_ite (besideSets_toStopping _ g)).trans (besideSets_moveGen d g _ _)

theorem besideSets_toOpening (d : Dev) (g : Fin 6) : (d.toOpening g).besideSets = d.besideSets := by
  have moved := besideSets_moveGen d g .opening id
  unfold Dev.toOpening
  dsimp only
  split
  · exact moved
  next b _ =>
    have asked := (besideSets_request (d.moveGen g .opening id) { breaker := b, action := .openIt, requester := .block .par }).trans moved
    split
    · rw [besideSets_toCooldown, moved]
    · split
      next answered =>
        rw [answered] at asked
        exact asked
      next answered =>
        rw [answered] at asked
        rw [besideSets_failGen]
        exact asked

/-! ## The blocks of a period -/

/-- P1 goes on sending through whatever the blocks ask of one another. -/
theorem sending_inner : Inner (fun d => d.lnk.p1.up = true ∧ d.lnk.p1.tx.isSome = true) := {
  port := fun p f tame ⟨up, tx⟩ => by
    cases p
    · exact ⟨(tame _).1.trans up, (tame _).2 tx⟩
    · exact ⟨up, tx⟩
  popProt := fun _ h => h, popCtrl := fun _ h => h, popSet := fun _ h => h, pop12 := fun _ h => h, pop21 := fun _ h => h
  putProt := fun _ _ h => h, putCtrl := fun _ _ h => h, dropCmd := fun _ h => h, putSet := fun _ _ h => h
  service := fun _ _ h => h, popNotice := fun _ h => h, error := fun _ _ h => h
  notice := fun n h => by unfold Dev.noticePut; dsimp only; split <;> exact h
  trigger := fun _ _ h => h, work := fun _ h => h, ties := fun _ h => h, breaker := fun _ _ _ _ h => h, jobs := fun _ h => h
  cause := fun _ h => h, gen := fun _ _ _ h => h, demand := fun _ h => h, grant := fun _ h => h, sync := fun _ h => h
  busReq := fun _ h => h, chg := fun _ _ h => h }

/-- A step of a period: it leaves `Dev.besideSets` as `v`, and P1 sends. -/
structure Dev.inPeriod (d v : Dev) : Prop where
  beside  : d.besideSets = v
  sending : d.lnk.p1.up = true ∧ d.lnk.p1.tx.isSome = true

theorem Dev.inPeriod.busy {d v : Dev} (h : d.inPeriod v) : d.portBusy .p1 := ⟨h.sending.1, h.sending.2⟩

theorem Dev.inPeriod.modGen {d v : Dev} (h : d.inPeriod v) (g : Fin 6) (f : GenRec → GenRec) : (d.modGen g f).inPeriod v :=
  ⟨h.beside, h.sending⟩

theorem Dev.inPeriod.toOpening {d v : Dev} (h : d.inPeriod v) (g : Fin 6) : (d.toOpening g).inPeriod v :=
  ⟨(besideSets_toOpening d g).trans h.beside, sending_inner.toOpening g h.sending⟩

theorem Dev.inPeriod.sendSetpoint {d v : Dev} (h : d.inPeriod v) (g : Fin 6) (run : Bool) (speed volt : Int) :
    (d.sendSetpoint g run speed volt).inPeriod v :=
  ⟨(besideSets_of_bare (bare_sendSetpoint d g run speed volt)).trans h.beside, sending_inner.sendSetpoint g run speed volt h.sending⟩

/-- The synchroniser's corrections change sets' biases and nothing else. -/
theorem keeps_syncCorrections {P : Dev → Prop} (keeps : ∀ d g f, P d → P (Dev.modGen d g f)) {d : Dev} (h : P d) :
    P d.syncCorrections := by
  unfold Dev.syncCorrections
  split
  · refine keeps_ite h (keeps_forEach _ _ (fun g x hx => ?_) h)
    have slip : P (if x.par.sync.slipOk then x.modGen g (fun r => r.addSpeed
        (truncDiv (((x.tab.par.targetSlip : Int) - x.par.sync.slip) * x.tab.par.gs) 100)) else x) := keeps_ite (keeps _ _ _ hx) hx
    exact keeps_ite (keeps _ _ _ slip) slip
  · exact h

/-- Sharing changes sets' biases and targets and nothing else, once the determination is made. -/
theorem keeps_share {P : Dev → Prop} (keeps : ∀ d g f, P d → P (Dev.modGen d g f)) {d : Dev}
    (h : P { d with par := { d.par with islanded := d.genBusIslanded } }) : P d.share := by
  refine keeps_ite (keeps_forEach _ _ (fun g x hx => ?_) h) (keeps_forEach _ _ (fun g x hx => keeps_ite (keeps _ _ _ hx) hx) h)
  exact keeps_ite (keeps _ _ _ hx) (keeps _ _ _ hx)

theorem Dev.inPeriod.unloadSets {d v : Dev} (h : d.inPeriod v) : d.unloadSets.inPeriod v := by
  refine keeps_forEach (P := (Dev.inPeriod · v)) _ _ (fun g x hx => ?_) h
  split
  · have ramped : (x.modGen g (fun r => { r with load := max 0 (r.load - (x.genCfg g).ramp) })).inPeriod v := hx.modGen g _
    exact keeps_ite (P := (Dev.inPeriod · v)) (hx.toOpening g) (keeps_ite (P := (Dev.inPeriod · v)) (ramped.modGen g _) ramped)
  · exact hx.modGen g _
  · exact hx

/-! ## The SETPOINT frames of a period -/

/-- A set's SETPOINT frame of a period, if it has one (R176). -/
def Dev.setpointDue (d : Dev) (g : Fin 6) : Dev :=
  if (d.gen g).state.running then d.sendSetpoint g true (d.gen g).speed (d.gen g).volt
  else if (d.gen g).state = .stopping then d.sendSetpoint g false 0 0
  else d

theorem sendSetpoints_eq (d : Dev) : d.sendSetpoints = forEach (List.finRange 6) (fun g d => d.setpointDue g) d := rfl

/-- The frame that a set's state asks for stands among these. -/
def Dev.setpointAmong (d : Dev) (q : List (Fin 6 × OutFrame)) (g : Fin 6) : Prop :=
  ((d.gen g).state.running = true → (g, d.setpointFrame g true (d.gen g).speed (d.gen g).volt) ∈ q) ∧
  ((d.gen g).state = .stopping → (g, d.setpointFrame g false 0 0) ∈ q)

theorem setpointAmong_of_bare {d e : Dev} (h : d.bare = e.bare) : d.setpointAmong = e.setpointAmong := by
  show d.bare.setpointAmong = e.bare.setpointAmong
  rw [h]

/-- A frame that a set's state asks for takes the place of that set's waiting frame alone. -/
theorem setpointAmong_putKey {d : Dev} {q : List (Fin 6 × OutFrame)} {g k : Fin 6} {f : OutFrame} (due : d.setpointAmong [(g, f)] g)
    (h : k = g ∨ d.setpointAmong q k) : d.setpointAmong (putKey g f q) k := by
  by_cases same : k = g
  · subst same
    have only {x : OutFrame} (hx : (k, x) ∈ [(k, f)]) : (k, x) ∈ putKey k f q := by
      rw [List.mem_singleton.mp hx]
      exact mem_putKey_same k f q
    exact ⟨fun runs => only (due.1 runs), fun stops => only (due.2 stops)⟩
  · obtain ⟨runs, stops⟩ := h.resolve_left same
    exact ⟨fun r => mem_putKey_of_ne (runs r) same f, fun s => mem_putKey_of_ne (stops s) same f⟩

/-- A busy P1 leaves the frame enqueued for a set waiting, and those that wait for others. -/
theorem sendSetpoint_among {d v : Dev} (h : d.inPeriod v) {g k : Fin 6} {run : Bool} {speed volt : Int}
    (due : d.setpointAmong [(g, d.setpointFrame g run speed volt)] g) (waits : k = g ∨ d.setpointAmong d.lnk.setpoints k) :
    (d.sendSetpoint g run speed volt).setpointAmong (d.sendSetpoint g run speed volt).lnk.setpoints k := by
  rw [setpointAmong_of_bare (bare_sendSetpoint d g run speed volt), Dev.sendSetpoint, enqueueSetpoint_held (.inl h.busy)]
  exact setpointAmong_putKey due waits

/-- After a set's turn its frame waits, and so does what waited for the others. -/
theorem setpointDue_among {d v : Dev} (h : d.inPeriod v) {g k : Fin 6} (waits : k = g ∨ d.setpointAmong d.lnk.setpoints k) :
    (d.setpointDue g).setpointAmong (d.setpointDue g).lnk.setpoints k := by
  unfold Dev.setpointDue
  split
  next runs =>
    exact sendSetpoint_among h ⟨fun _ => List.mem_singleton_self _, fun stops => by rw [stops] at runs; cases runs⟩ waits
  next halted =>
    split
    next stops => exact sendSetpoint_among h ⟨fun runs => absurd runs halted, fun _ => List.mem_singleton_self _⟩ waits
    next other =>
      rcases waits with rfl | waits
      · exact ⟨fun runs => absurd runs halted, fun stops => absurd stops other⟩
      · exact waits

theorem Dev.inPeriod.setpointDue {d v : Dev} (h : d.inPeriod v) (g : Fin 6) : (d.setpointDue g).inPeriod v :=
  keeps_ite (P := (Dev.inPeriod · v)) (h.sendSetpoint g _ _ _) (keeps_ite (P := (Dev.inPeriod · v)) (h.sendSetpoint g _ _ _) h)

/-- After the turns of these sets, each of them and each set whose frame waited before has its frame waiting. -/
theorem setpointsDue_among {v : Dev} (gs : List (Fin 6)) {d : Dev} (h : d.inPeriod v) {k : Fin 6}
    (waits : k ∈ gs ∨ d.setpointAmong d.lnk.setpoints k) :
    (forEach gs (fun g d => d.setpointDue g) d).setpointAmong (forEach gs (fun g d => d.setpointDue g) d).lnk.setpoints k := by
  induction gs generalizing d with
  | nil => exact waits.resolve_left List.not_mem_nil
  | cons g gs ih =>
    refine ih (h.setpointDue g) ?_
    rcases waits with member | waits
    · rcases List.mem_cons.mp member with same | later
      · exact .inr (setpointDue_among h (.inl same))
      · exact .inl later
    · exact .inr (setpointDue_among h (.inr waits))

theorem Dev.inPeriod.sendSetpoints {d v : Dev} (h : d.inPeriod v) : d.sendSetpoints.inPeriod v :=
  keeps_forEach (P := (Dev.inPeriod · v)) _ _ (fun g _ hx => hx.setpointDue g) h

/-- At the end of a period every set's frame of it waits. -/
theorem Dev.inPeriod.frames {d v : Dev} (h : d.inPeriod v) (g : Fin 6) :
    d.sendSetpoints.setpointAmong d.sendSetpoints.lnk.setpoints g := by
  rw [sendSetpoints_eq]
  exact setpointsDue_among (List.finRange 6) h (.inl (List.mem_finRange g))

/-! ## The period -/

/-- The period is counted at its end. -/
def Dev.countPeriod (d : Dev) : Dev := { d with par := { d.par with periods := d.par.periods + 1 } }

theorem setpointPeriod_due {d : Dev} (settled : d.par.settled = true) (due : reached d.par.periodDue d.now = true) :
    d.setpointPeriod = d.syncCorrections.share.unloadSets.sendSetpoints.countPeriod :=
  if_pos (by rw [settled, due]; rfl)

/-- What a counted period leaves, and when the next falls due (R176). -/
theorem Dev.inPeriod.countPeriod {d v : Dev} (h : d.inPeriod v) :
    (d.countPeriod.par.periods = v.par.periods + 1 ∧ d.countPeriod.par.firstPeriod = v.par.firstPeriod) ∧
      d.countPeriod.par.periodDue = v.par.periodDue + 100 ∧ d.countPeriod.par.islanded = v.par.islanded ∧
      d.countPeriod.chg = v.chg ∧ d.countPeriod.meas = v.meas := by
  have sum (a n : Count32) : a + 100 * (n + 1) = a + 100 * n + 100 := by rw [mul_add, mul_one, add_assoc]
  obtain ⟨rfl, -⟩ := h
  exact ⟨⟨rfl, rfl⟩, sum _ _, rfl, rfl, rfl⟩

theorem genBusIslanded_syncCorrections (d : Dev) : d.syncCorrections.genBusIslanded = d.genBusIslanded :=
  keeps_syncCorrections (P := fun x => x.genBusIslanded = d.genBusIslanded) (fun _ _ _ h => h) rfl

/-- Up to its SETPOINT frames a period changes, beside the sets, the determination alone. -/
theorem share_inPeriod {d : Dev} (busy : d.portBusy .p1) : d.syncCorrections.share.inPeriod
    { d with par := { d.par with islanded := d.genBusIslanded } }.besideSets := by
  obtain ⟨beside, sending⟩ := keeps_syncCorrections (P := (Dev.inPeriod · d.besideSets)) (fun _ g f h => h.modGen g f)
    (d := d) ⟨rfl, busy.up, busy.tx⟩
  have determined : { d.syncCorrections with par := { d.syncCorrections.par with islanded := d.syncCorrections.genBusIslanded }
      }.besideSets = { d with par := { d.par with islanded := d.genBusIslanded } }.besideSets := by
    rw [genBusIslanded_syncCorrections]
    exact congrArg (fun x : Dev => { x with par := { x.par with islanded := d.genBusIslanded } }) beside
  exact keeps_share (P := (Dev.inPeriod · _)) (fun _ g f h => h.modGen g f) ⟨determined, sending⟩

/-- Settles O30: `Dev.inPeriod` to the period's end, and each set's frame from its turn on. -/
theorem setpointPeriodServed : Obligations.SetpointPeriodServed := by
  intro s run settled due busy
  have before := (share_inPeriod busy).unloadSets
  have frames := before.frames
  have served := setpointPeriod_due settled due
  have after := before.sendSetpoints
  generalize s.dev.syncCorrections.share.unloadSets.sendSetpoints = x at frames served after
  obtain ⟨counted, next, islanded, chg, meas⟩ := after.countPeriod
  refine ⟨x.countPeriod, ?_, counted.1, counted.2, next, islanded, chg, meas, fun g => (frames g).1, fun g => (frames g).2⟩
  rw [← served]
  exact State.whenRunning_eq run (fun d => d.setpointPeriod.flush)

end Sys2Proof.Machine

/-!
What the evaluations between the blocks keep (R38, R59, R60): `Withdraws P` says that a property is kept by the updates that an
invalidation makes before its reports are taken, `Evaluates P` adds those of `Reports P`, and `Instants P` what a phasor instant
stores. Two views of the device are such properties: the alignment of samples with the windows (`Dev.aligned`), and
what is stored with the clock and the mode (`Dev.stored`).
-/
namespace Sys2Proof.Machine

/-- A property kept by the updates that an invalidation of quantities makes: results that leave the windows, PROT, buses, generator
sides, the synchroniser, and the reports that wait. -/
structure Withdraws (P : Dev → Prop) : Prop where
  meas   : ∀ {d} (x : Meas), (∀ q, (tget x.quantities q).window = (d.quantity q).window) → P d → P { d with meas := x }
  prot   : ∀ {d} x, P d → P { d with prot := x }
  buses  : ∀ {d} x, P d → P { d with swm := { d.swm with buses := x } }
  brkAny : ∀ {d} b f, P d → P (d.modBreaker b f)
  sync   : ∀ {d} x, P d → P { d with par := { d.par with sync := x } }
  work   : ∀ {d} w, P d → P { d with work := w }

/-- A property also kept as those reports are taken. -/
structure Evaluates (P : Dev → Prop) : Prop extends Reports P, Withdraws P

/-- A property also kept by what elements that operate at an instant store: lockouts and transfer blocks. -/
structure Instants (P : Dev → Prop) : Prop extends Evaluates P where
  tab : ∀ {d} x, P d → P { d with tab := x }

/-! ## Invalidation -/

/-- An invalidation before what it reports to the other blocks is taken (R60). -/
def Dev.withdraw (d : Dev) (qs : List (Fin 96)) : Dev :=
  (((d.measInvalidate qs).protInvalidate qs).invalidateBuses qs).syncInvalidate qs

namespace Withdraws
variable {P : Dev → Prop} (S : Withdraws P) {d : Dev}
include S

theorem markSource (e : Fin 32) (on : Bool) (h : P d) : P (d.markSource e on) := by
  unfold Dev.markSource
  split
  · exact S.work _ h
  · exact h

theorem unoperate (e : Fin 32) (h : P d) : P (d.unoperate e) := keeps_ite (S.markSource _ _ (S.prot _ h)) h
theorem blockElement (e : Fin 32) (h : P d) : P (d.blockElement e) := S.prot _ (S.unoperate _ h)

theorem protInvalidate (qs : List (Fin 96)) (h : P d) : P (d.protInvalidate qs) :=
  keeps_ite h (keeps_forEach _ _ (fun _ _ h => keeps_ite (S.blockElement _ h) h) h)

theorem measInvalidate (qs : List (Fin 96)) (h : P d) : P (d.measInvalidate qs) := by
  refine S.meas _ (fun _ => rfl) (S.meas _ (fun q => ?_) h)
  rw [tget_ofFn]
  split <;> rfl

theorem setBusState (y : Fin 6) (b : BusState) (h : P d) : P (d.setBusState y b) := keeps_ite h (S.work _ (S.buses _ h))

theorem invalidateBuses (qs : List (Fin 96)) (h : P d) : P (d.invalidateBuses qs) :=
  keeps_forEach _ _ (fun _ _ h => keeps_ite (S.brkAny _ _ h) h)
    (keeps_forEach _ _ (fun _ _ h => keeps_ite (S.setBusState _ _ h) h) h)

theorem syncInvalidate (qs : List (Fin 96)) (h : P d) : P (d.syncInvalidate qs) := by
  unfold Dev.syncInvalidate
  split
  · exact h
  · exact keeps_ite (S.sync _ h) h

theorem withdraw (qs : List (Fin 96)) (h : P d) : P (d.withdraw qs) :=
  S.syncInvalidate _ (S.invalidateBuses _ (S.protInvalidate _ (S.measInvalidate _ h)))

end Withdraws

theorem invalidate_some {d : Dev} {qs : List (Fin 96)} (some : qs ≠ []) : d.invalidate qs = (d.withdraw qs).flush := if_neg some

theorem Evaluates.invalidate {P : Dev → Prop} (S : Evaluates P) {d : Dev} (qs : List (Fin 96)) (h : P d) : P (d.invalidate qs) :=
  keeps_ite h (S.flush (S.withdraw qs h))

/-! ## A phasor instant -/

namespace Instants
variable {P : Dev → Prop} (S : Instants P) {d : Dev}
include S

theorem writeLockout (b : Fin 24) (v : Bool) (h : P d) : P (d.writeLockout b v) := keeps_ite h (S.storeJob _ (S.tab _ h))
theorem writeBlock (y : Fin 6) (v : Bool) (h : P d) : P (d.writeBlock y v) := keeps_ite h (S.storeJob _ (S.tab _ h))

theorem operateRequests (e : Fin 32) (h : P d) : P (d.operateRequests e) := by
  have opened := keeps_forEach (P := P) (d.elementCfg e).tripIds
    (fun b d' => d'.protOpen b (decide ((d.elementCfg e).bf = 1)) (.element e)) (fun _ _ h => S.protOpen _ _ _ h) h
  have locked := keeps_ite (P := P) (c := (d.elementCfg e).lockout = 1)
    (keeps_forEach (d.elementCfg e).tripIds (fun b d => d.writeLockout b true) (fun _ _ h => S.writeLockout _ _ h) opened) opened
  exact keeps_ite (keeps_forEach _ _ (fun _ _ h => S.writeBlock _ _ h) locked) locked

theorem operateElement (e : Fin 32) (h : P d) : P (d.operateElement e) := by
  have asked : P ((d.modElement e (fun r => { r with operated := true, opCount := sat16 r.opCount })).operateRequests e) :=
    S.operateRequests _ (S.prot _ h)
  exact S.markSource _ _ (S.queueNotice _ _ _ (keeps_ite (S.trigger _ _ asked) asked))

theorem evaluateElement (e : Fin 32) (h : P d) : P (d.evaluateElement e) := by
  have timed : P (d.modElement e (fun r => d.timeElement (d.elementCfg e) r (d.assess (d.elementCfg e)))) := S.prot _ h
  exact keeps_ite (keeps_ite (keeps_ite timed (S.unoperate _ timed)) (keeps_ite (S.operateElement _ timed) timed))
    (S.blockElement _ h)

theorem elementInstant (e : Fin 32) (h : P d) : P (d.elementInstant e) :=
  keeps_ite h (S.prot _ (keeps_ite (S.evaluateElement _ h) (S.prot _ h)))

theorem protInstant (h : P d) : P d.protInstant :=
  keeps_ite (S.prot _ h) (keeps_forEach _ _ (fun _ _ h => S.elementInstant _ h) (S.prot _ h))

theorem measure (h : P d) : P d.measure := S.meas _ (fun _ => rfl) (S.meas _ (fun _ => by rw [tget_ofFn]; rfl) h)

theorem evaluateBuses (h : P d) : P d.evaluateBuses :=
  keeps_forEach _ _ (fun _ _ h => keeps_ite (S.brkAny _ _ h) h)
    (keeps_forEach _ _ (fun _ _ h => S.buses _ (S.setBusState _ _ h)) h)

/-- What holds once the instant has been counted holds after it. -/
theorem phasorInstant (h : P { d with sau := { d.sau with inst := d.sau.inst + 1 } }) : P d.phasorInstant :=
  S.flush (S.parInstant (S.flush (S.chgInstant (S.flush (S.evaluateBuses (S.flush (S.protInstant (S.measure (S.buses _ h)))))))))

end Instants

/-! ## The two views -/

theorem of_same_fixed {Q : Fixed → Prop} {d e : Dev} (same : e.fixed = d.fixed) (h : Q d.fixed) : Q e.fixed := same ▸ h

/-- What is a matter of the fixed part alone is kept as reports are taken. -/
theorem reports_of_fixed (Q : Fixed → Prop) : Reports (fun d => Q d.fixed) where
  port p f hf h := of_same_fixed ((fixed_reports _).port p f hf rfl) h
  popProt _ h := h
  popCtrl _ h := h
  popSet _ h := h
  pop12 _ h := h
  pop21 _ h := h
  putProt _ _ h := h
  putCtrl _ _ h := h
  dropCmd _ h := h
  putSet _ _ h := h
  service _ _ h := h
  popNotice _ h := h
  error _ _ h := h
  notice n h := of_same_fixed ((fixed_reports _).notice n rfl) h
  trigger k n h := of_same_fixed ((fixed_reports _).trigger k n rfl) h
  work _ h := h
  ties _ h := h
  breaker b f hf o h := of_same_fixed ((fixed_reports _).breaker b f hf o rfl) h
  jobs _ h := h
  cause _ h := h
  gen g f hf h := of_same_fixed ((fixed_reports _).gen g f hf rfl) h
  demand _ h := h
  grant _ h := h
  sync _ h := h
  busReq _ h := h
  chg f hf h := of_same_fixed ((fixed_reports _).chg f hf rfl) h
  chgAny f hf h := of_same_fixed ((fixed_reports _).chgAny f hf rfl) h

/-- What the alignment of samples works on: f0, SAU's state and the windows. -/
structure Alignment where
  f60 : Bool
  sau : Sau
  windows : Fin 96 → Vector Sample 80

/-- The alignment of a device. -/
def Dev.aligned (d : Dev) : Alignment := { f60 := d.f60, sau := d.sau, windows := fun q => (d.quantity q).window }

/-- What is stored, but for the causes, with the clock and the mode. -/
def Dev.stored (d : Dev) : Tables × Count32 × Mode := ({ d.tab with causes := Vector.replicate 5 255 }, d.now, d.mode)

theorem aligned_instants (v : Alignment) : Instants (fun d => d.aligned = v) where
  toReports := reports_of_fixed (fun x =>
    { f60 := x.straps.1, sau := x.sau, windows := fun q => (tget x.meas.quantities q).window : Alignment } = v)
  meas _ same h := h ▸ congrArg (Alignment.mk _ _) (funext same)
  prot _ h := h
  buses _ h := h
  brkAny _ _ h := h
  tab _ h := h

theorem stored_evaluates (v : Tables × Count32 × Mode) : Evaluates (fun d => d.stored = v) where
  toReports := reports_of_fixed (fun x => (x.tab, x.clock, x.mode) = v)
  meas _ _ h := h
  prot _ h := h
  buses _ h := h
  brkAny _ _ h := h

theorem aligned_flush (d : Dev) : d.flush.aligned = d.aligned := (aligned_instants _).flush rfl
theorem aligned_recordError (d : Dev) (c : ErrorCode) (n : Nat) : (d.recordError c n).aligned = d.aligned :=
  (aligned_instants _).recordError c n rfl
theorem aligned_queueNotice (d : Dev) (k n : Nat) (bs : List Byte) : (d.queueNotice k n bs).aligned = d.aligned :=
  (aligned_instants _).queueNotice k n bs rfl
theorem aligned_invalidate (d : Dev) (qs : List (Fin 96)) : (d.invalidate qs).aligned = d.aligned :=
  (aligned_instants _).invalidate qs rfl

theorem stored_flush (d : Dev) : d.flush.stored = d.stored := (stored_evaluates _).flush rfl
theorem stored_invalidate (d : Dev) (qs : List (Fin 96)) : (d.invalidate qs).stored = d.stored :=
  (stored_evaluates _).invalidate qs rfl

theorem sau_of_aligned {d e : Dev} (h : d.aligned = e.aligned) : d.sau = e.sau := congrArg Alignment.sau h

theorem stream_of_aligned {d e : Dev} (h : d.aligned = e.aligned) (i : Fin 24) : d.stream i = e.stream i :=
  congrArg (fun x : Sau => tget x.streams i) (sau_of_aligned h)

end Sys2Proof.Machine

/-!
The sample alignment unit between closes: samples that are not placed (R26, R27), with O18, and silence (R32 to R34), with O21.
-/
namespace Sys2Proof.Machine

/-! ## Streams that are lost -/

/-- A stream's record as it enters LOST (R34). -/
def StreamRec.lose (r : StreamRec) : StreamRec := { r with state := .lost, fill := 0, missing := 0 }

theorem Dev.modStream_stream (d : Dev) (i j : Fin 24) (f : StreamRec → StreamRec) :
    (d.modStream i f).stream j = if j = i then f (d.stream j) else d.stream j := tget_tmod _ _ _ _

/-- What a stream's loss records and notes is no matter of the alignment. -/
theorem aligned_loseStream (d : Dev) (i : Fin 24) : (d.loseStream i).aligned = (d.modStream i StreamRec.lose).aligned :=
  (aligned_queueNotice _ _ _ _).trans (aligned_recordError _ _ _)

theorem idleIfEmpty_streams (d : Dev) : d.idleIfEmpty.sau.streams = d.sau.streams := by
  unfold Dev.idleIfEmpty
  split <;> rfl

theorem idleIfEmpty_stream (d : Dev) (i : Fin 24) : d.idleIfEmpty.stream i = d.stream i :=
  congrArg (fun v => tget v i) (idleIfEmpty_streams d)

/-! ## Samples that are not placed -/

/-- The fourth sample out of window in a row leaves its stream LOST, and its count at 0 (R27, R34). -/
theorem outOfWindow_fourth {d : Dev} {i : Fin 24} (fourth : 3 ≤ (d.stream i).outOfWindow) :
    ((d.outOfWindow i).stream i).state = .lost ∧ ((d.outOfWindow i).stream i).outOfWindow = 0 := by
  have most : 4 ≤ (d.stream i).outOfWindow + 1 := by omega
  unfold Dev.outOfWindow
  rw [if_pos most]
  dsimp only
  set z := d.modStream i (fun r => { r with outOfWindow := 0 }) with hz
  have zeroed : z.stream i = { d.stream i with outOfWindow := 0 } := Dev.modStream_stream_same _ _ _
  split
  next lost => rw [zeroed]; exact ⟨lost, rfl⟩
  next =>
    have gone : (z.loseStream i).stream i = (z.stream i).lose :=
      (stream_of_aligned (aligned_loseStream z i) i).trans (Dev.modStream_stream_same _ _ _)
    rw [idleIfEmpty_stream]
    split
    · rw [stream_of_aligned (aligned_invalidate _ _), gone, zeroed]
      exact ⟨rfl, rfl⟩
    · rw [gone, zeroed]
      exact ⟨rfl, rfl⟩

section
variable {d : Dev} {i : Fin 24} {r : Ring} {count : Nat}

/-- The distance ahead of the ring's oldest slot at which a sample of a stream falls (R25). -/
def Dev.sampleDistance (d : Dev) (i : Fin 24) (r : Ring) (count : Nat) : Nat :=
  r.distance (Config.modulus d.f60) ((count + (d.streamCfg i).delay) % Config.modulus d.f60)

theorem half_modulus (f60 : Bool) : 16 ≤ Config.modulus f60 / 2 := by cases f60 <;> decide

theorem takeSample_late (running : d.sau.ring = some r) (late : Config.modulus d.f60 / 2 ≤ d.sampleDistance i r count)
    (qs : List Quality) (vs : List Int) :
    d.takeSample i count qs vs = d.modStream i (fun x => { x with late := sat32 x.late, outOfWindow := 0 }) := by
  simp only [Dev.takeSample, running]
  exact if_pos late

theorem takeSample_early (running : d.sau.ring = some r) (ahead : 16 ≤ d.sampleDistance i r count)
    (near : d.sampleDistance i r count < Config.modulus d.f60 / 2) (qs : List Quality) (vs : List Int) :
    d.takeSample i count qs vs = d.outOfWindow i := by
  simp only [Dev.takeSample, running]
  refine (if_neg (Nat.not_le.mpr near)).trans ?_
  rw [show toId 16 (r.distance _ _) = none from toId_none ahead]

/-- A sample that falls in an open slot counts as a duplicate or is placed. -/
theorem takeSample_open (running : d.sau.ring = some r) {k : Fin 16} (dist : d.sampleDistance i r count = k.val)
    (qs : List Quality) (vs : List Int) : d.takeSample i count qs vs =
      if (tget r.slots k).delivered.contains i then
        d.modStream i (fun x => { x with duplicate := sat32 x.duplicate, outOfWindow := 0 })
      else d.acceptSample i r ((count + (d.streamCfg i).delay) % Config.modulus d.f60) qs vs := by
  have near : ¬ Config.modulus d.f60 / 2 ≤ d.sampleDistance i r count := by have := half_modulus d.f60; omega
  simp only [Dev.takeSample, running]
  refine (if_neg near).trans ?_
  rw [show toId 16 (r.distance _ _) = some k from (congrArg (toId 16) dist).trans (toId_val k)]

end

/-- What is left to be done with a sample that has been handed over: the reports, and its way on to P2 (R6, R10). -/
def Dev.handedOn (d : Dev) (forward : Bool) (f : EthFrame) : Dev := if forward then d.flush.forward .p1 f else d.flush

/-- A sample of a stream is handed to SAU. -/
theorem exec_sample {s : State} {f : EthFrame} {i : Fin 24} {count : Nat} {qs : List Quality} {vs : List Int}
    (run : s.power = .running) (carries : s.carries f (.sample count qs vs)) (kind : field f.payload 4 1 = 1)
    (stream : s.dev.tab.streamAt (field f.payload 2 2) = some i) (m : Bool) :
    exec (.frameReception .p1 f m) s = .next (s.withDev
      (((s.dev.arrived .p1 m).takeSample i count qs vs).handedOn (decide ((s.dev.streamCfg i).forward = 1)) f)) := by
  have content : content (Config.modulus (s.dev.arrived .p1 m).f60) (parseHeader f.payload) f.payload = .body (.sample count qs vs) :=
    carries.content
  rw [exec_bayline run (by exact carries.up) carries.check carries.type carries.length,
    classifyFrame_consumed (by exact carries.source) (by exact carries.dest) (by exact consumer_sample kind stream), content]
  rfl

/-- Nothing reported is left, and a frame to forward leaves at once from an idle P2. -/
theorem handedOn_idle {d : Dev} {forward : Prop} [Decidable forward] (quiet : d.work = []) (idle : forward → d.portIdle .p2)
    (f : EthFrame) : d.handedOn (decide forward) f = if forward then d.modPort .p2 (fun r => { r with tx := some f }) else d := by
  unfold Dev.handedOn
  rw [Dev.flush_of_no_work d quiet]
  by_cases h : forward
  · rw [if_pos (decide_eq_true h), if_pos h]
    exact forward_idle (p := .p1) (idle h) f
  · rw [if_neg (by simpa using h), if_neg h]

theorem handedOn_stream (d : Dev) (forward : Bool) (f : EthFrame) (i : Fin 24) : (d.handedOn forward f).stream i = d.stream i := by
  have flushed : d.flush.stream i = d.stream i := stream_of_aligned (aligned_flush d) i
  unfold Dev.handedOn
  split
  · exact (congrArg (fun x => x.stream i) (bare_forward d.flush .p1 f)).trans flushed
  · exact flushed

theorem Dev.portIdle.modStream {d : Dev} {p : Port} (h : d.portIdle p) (i : Fin 24) (f : StreamRec → StreamRec) :
    (d.modStream i f).portIdle p := ⟨⟨h.reply, h.response⟩, h.up, h.tx, h.slot, h.queues1, h.queues2⟩

/-- Settles O18: a sample that is not placed changes its stream's record alone, until the fourth ahead of the ring in a row. -/
theorem samplesNotPlaced : Obligations.SamplesNotPlaced := by
  intro s f m i count qs vs r run carries kind stream quiet running idle c dist d sent
  have arrived : s.dev.arrived .p1 m = d := rfl
  have ran := exec_sample run carries kind stream m
  have away : d.sampleDistance i r count = dist := rfl
  have half : Config.modulus d.f60 / 2 = c / 2 := rfl
  have free (h : (s.dev.streamCfg i).forward = 1) : d.portIdle .p2 := (idle h).arrived .p1 m
  have running : d.sau.ring = some r := running
  have only (g : StreamRec → StreamRec) (taken : d.takeSample i count qs vs = d.modStream i g) :
      exec (.frameReception .p1 f m) s = .next (s.withDev (sent (d.modStream i g))) := by
    rw [ran, arrived, taken, handedOn_idle (by exact quiet) (fun h => (free h).modStream i g)]
  refine ⟨fun late => only _ (takeSample_late running (half ▸ away ▸ late) qs vs), fun k there twice => only _ ?_,
    fun ahead near few => only _ ?_, fun ahead near many => ⟨_, ran, ?_⟩⟩
  · rw [takeSample_open running (away.trans there), if_pos twice]
    rfl
  · rw [takeSample_early running (away ▸ ahead) (half ▸ away ▸ near)]
    exact if_neg (show ¬ 4 ≤ (s.dev.stream i).outOfWindow + 1 by omega)
  · have lost := outOfWindow_fourth (d := d) many
    simpa only [State.withDev, handedOn_stream, arrived, takeSample_early running (away ▸ ahead) (half ▸ away ▸ near)] using lost

end Sys2Proof.Machine

/-!
The recording of an error that then stands in the list (R214), and silence (R32 to R34) with O21.
-/
namespace Sys2Proof.Machine

/-! ## Errors that are listed -/

theorem errorListed_iff {es : List ErrorEntry} {c : ErrorCode} {n : Nat} :
    errorListed es c n = true ↔ ∃ e ∈ es, e.code = c ∧ e.subject = n := by simp [errorListed]

/-- An error that is recorded once more keeps its place. -/
theorem addError_again {es : List ErrorEntry} {c : ErrorCode} {n : Nat} (listed : errorListed es c n = true) (now : Count32) :
    addError es c n now =
      es.map (fun e => if e.code = c ∧ e.subject = n then { e with lastMs := now, count := sat16 e.count } else e) := if_pos listed

theorem addError_new {es : List ErrorEntry} {c : ErrorCode} {n : Nat} (new : errorListed es c n = false) (now : Count32) :
    addError es c n now = (if es.length < 16 then es else evictError es)
      ++ [{ code := c, subject := n, firstMs := now, lastMs := now, count := 1 }] := if_neg (by simp [new])

theorem addError_listed (es : List ErrorEntry) (c : ErrorCode) (n : Nat) (now : Count32) :
    errorListed (addError es c n now) c n = true := by
  cases h : errorListed es c n with
  | true =>
    obtain ⟨e, member, code, subject⟩ := errorListed_iff.mp h
    rw [addError_again h, errorListed_iff]
    exact ⟨_, List.mem_map_of_mem member, by simp [code, subject]⟩
  | false =>
    rw [addError_new h, errorListed_iff]
    exact ⟨_, List.mem_append_right _ (List.mem_singleton_self _), rfl, rfl⟩

/-- A full list never gives up a MAJOR entry that came last. -/
theorem mem_evictError_of_last {es : List ErrorEntry} {e : ErrorEntry} (major : e.code.major = true) (others : es ≠ []) :
    e ∈ evictError (es ++ [e]) := by
  unfold evictError
  split
  next i found =>
    obtain ⟨short, minor, -⟩ := List.findIdx?_eq_some_iff_getElem.mp found
    have before : i < es.length := by
      by_contra h
      have last : i = es.length := by simp at short; omega
      subst last
      simp [major] at minor
    rw [List.eraseIdx_append_of_lt_length before]
    exact List.mem_append_right _ (List.mem_singleton_self e)
  next =>
    rw [List.drop_append_of_le_length (List.length_pos_of_ne_nil others)]
    exact List.mem_append_right _ (List.mem_singleton_self e)

/-- A listed error stays listed as another is recorded, if the list has room or its entry is a MAJOR one that came last. -/
theorem addError_keeps {es : List ErrorEntry} {e : ErrorEntry} (member : e ∈ es)
    (stays : es.length < 16 ∨ e ∈ evictError es) (c : ErrorCode) (n : Nat) (now : Count32) :
    errorListed (addError es c n now) e.code e.subject = true := by
  rw [errorListed_iff]
  cases h : errorListed es c n with
  | true =>
    rw [addError_again h]
    exact ⟨_, List.mem_map_of_mem member, by split <;> exact ⟨rfl, rfl⟩⟩
  | false =>
    rw [addError_new h]
    refine ⟨e, List.mem_append_left _ ?_, rfl, rfl⟩
    split
    · exact member
    next full => exact stays.resolve_left full

theorem runPort_errors (d : Dev) (p : Port) : (d.runPort p).mgt.errors = d.mgt.errors := by
  have kept := congrArg (fun x => x.mgt.errors) (runPort_besideRun d p)
  cases p <;> exact kept

/-- A notice records at most that the notice queue overflows (R216). -/
theorem queueNotice_errors (d : Dev) (kind subject : Nat) (detail : List Byte) :
    (d.queueNotice kind subject detail).mgt.errors = d.mgt.errors ∨
      (d.queueNotice kind subject detail).mgt.errors = addError d.mgt.errors .noticeOverflow noSubject d.now := by
  unfold Dev.queueNotice
  split
  · exact .inl rfl
  · dsimp only
    rw [runPort_errors]
    split
    · exact .inr rfl
    · exact .inl rfl

/-- A recorded error is listed afterwards if it is MAJOR, or if its notice too finds room in the list (R214). -/
theorem recordError_listed {d : Dev} {c : ErrorCode} (stays : c.major = true ∨ d.mgt.errors.length < 15) (n : Nat) :
    errorListed (d.recordError c n).mgt.errors c n = true := by
  have noted : errorListed (d.noteError c n).mgt.errors c n = true := addError_listed _ _ _ _
  unfold Dev.recordError
  split
  · exact noted
  next new =>
    have new : errorListed d.mgt.errors c n = false := by simpa using new
    rcases queueNotice_errors (d.noteError c n) 8 n (beBytes 1 c.code ++ beBytes 1 (bit c.major) ++ [0, 0]) with same | more
    · rw [same]
      exact noted
    · have list : (d.noteError c n).mgt.errors = _ := addError_new new d.now
      rw [more, list]
      refine addError_keeps (e := { code := c, subject := n, firstMs := d.now, lastMs := d.now, count := 1 })
        (List.mem_append_right _ (List.mem_singleton_self _)) ?_ _ _ _
      by_cases room : d.mgt.errors.length < 15
      · left
        rw [if_pos (by omega), List.length_append, List.length_singleton]
        omega
      · have others : (if d.mgt.errors.length < 16 then d.mgt.errors else evictError d.mgt.errors) ≠ [] := by
          apply List.ne_nil_of_length_pos
          split
          · omega
          · rw [evict_length]
            omega
        exact .inr (mem_evictError_of_last (stays.resolve_right room) others)

/-! ## Silence -/

/-- The streams that a silence loses (R32). -/
def Dev.activeStreams (d : Dev) : List (Fin 24) := idsWhere 24 (fun i => (d.stream i).state.active)

/-- Every active stream lost, in rising id (R32). -/
def Dev.loseActive (d : Dev) : Dev := forEach d.activeStreams (fun i d => d.loseStream i) d

/-- The device as silence leaves it before it reports what left service. -/
def Dev.silenced (d : Dev) : Dev := (d.loseActive.recordError .streamsSilent noSubject).idleIfEmpty

/-- The quantities of the streams that silence takes out of service. -/
def Dev.silencedQuantities (d : Dev) : List (Fin 96) :=
  (d.activeStreams.filter (fun i => (d.stream i).state.inService)).flatMap (fun i => (d.silenced.streamCfg i).quantities)

theorem mem_activeStreams {d : Dev} {i : Fin 24} : i ∈ d.activeStreams ↔ (d.stream i).state.active = true := by
  simp [Dev.activeStreams, idsWhere]

/-- Streams that are lost in turn: each is LOST, and no other changes. -/
theorem loseStreams_stream (xs : List (Fin 24)) (d : Dev) (i : Fin 24) :
    (forEach xs (fun i d => d.loseStream i) d).stream i = if i ∈ xs then (d.stream i).lose else d.stream i := by
  induction xs generalizing d with
  | nil => rfl
  | cons x xs ih =>
    rw [forEach_cons, ih, stream_of_aligned (aligned_loseStream d x), Dev.modStream_stream]
    by_cases here : i = x <;> by_cases later : i ∈ xs <;> simp [here, later, StreamRec.lose]

theorem loseActive_stream (d : Dev) (i : Fin 24) :
    d.loseActive.stream i = if (d.stream i).state.active then (d.stream i).lose else d.stream i := by
  rw [Dev.loseActive, loseStreams_stream]
  simp only [mem_activeStreams]

theorem silenced_stream (d : Dev) (i : Fin 24) :
    d.silenced.stream i = if (d.stream i).state.active then (d.stream i).lose else d.stream i := by
  rw [Dev.silenced, idleIfEmpty_stream, stream_of_aligned (aligned_recordError _ _ _), loseActive_stream]

theorem anyActive_iff {d : Dev} : d.anyActive = true ↔ ∃ i, (d.stream i).state.active = true := by
  simp [Dev.anyActive]

theorem idleIfEmpty_active {d : Dev} (some : d.anyActive = true) : d.idleIfEmpty = d := if_pos some

theorem idleIfEmpty_idle {d : Dev} (none : d.anyActive = false) :
    d.idleIfEmpty = { d with sau := { d.sau with ring := .none, silence := .none } } := if_neg (by simp [none])

/-- After a silence no stream is active, so the ring is IDLE and its timer has stopped (R33). -/
theorem silenced_idle (d : Dev) : d.silenced.sau.ring = none ∧ d.silenced.sau.silence = none := by
  have none : (d.loseActive.recordError .streamsSilent noSubject).anyActive = false := by
    rw [Bool.eq_false_iff, ne_eq, anyActive_iff]
    rintro ⟨i, active⟩
    rw [stream_of_aligned (aligned_recordError _ _ _), loseActive_stream] at active
    split at active
    · exact Bool.false_ne_true active
    next idle => exact idle active
  rw [Dev.silenced, idleIfEmpty_idle none]
  exact ⟨rfl, rfl⟩

theorem idleIfEmpty_mgt (d : Dev) : d.idleIfEmpty.mgt = d.mgt := by
  unfold Dev.idleIfEmpty
  split <;> rfl

theorem idleIfEmpty_work (d : Dev) : d.idleIfEmpty.work = d.work := by
  unfold Dev.idleIfEmpty
  split <;> rfl

theorem silenced_listed (d : Dev) : errorListed d.silenced.mgt.errors .streamsSilent noSubject = true := by
  rw [Dev.silenced, idleIfEmpty_mgt]
  exact recordError_listed (.inl rfl) _

theorem work_of_bare {d e : Dev} (h : d.bare = e.bare) : d.work = e.work := congrArg (fun x => x.work) h

theorem loseStream_work (d : Dev) (i : Fin 24) : (d.loseStream i).work = d.work := by
  have recorded := work_of_bare (bare_recordError (d.modStream i StreamRec.lose) .streamLost i.val)
  exact (work_of_bare (bare_queueNotice _ _ _ _)).trans recorded

theorem silenced_work (d : Dev) : d.silenced.work = d.work := by
  have lost : d.loseActive.work = d.work :=
    forEach_keeps (fun x => x.work = d.work) _ _ _ (fun i x h => (loseStream_work x i).trans h) rfl
  rw [Dev.silenced, idleIfEmpty_work, work_of_bare (bare_recordError _ _ _), lost]

/-- An invalidation records no error before its reports are taken. -/
theorem withdraw_mgt (d : Dev) (qs : List (Fin 96)) : (d.withdraw qs).mgt = d.mgt :=
  Withdraws.withdraw (P := fun x => x.mgt = d.mgt)
    ⟨fun _ _ h => h, fun _ h => h, fun _ h => h, fun _ _ h => h, fun _ h => h, fun _ h => h⟩ qs rfl

theorem expireSilence_due {d : Dev} (due : reached? d.sau.silence d.now = true) :
    d.expireSilence = d.silenced.invalidate d.silencedQuantities := if_pos due

/-- Settles O21: silence loses the active streams, and an invalidation of their quantities leaves the alignment as it is. -/
theorem silenceLosesStreams : Obligations.SilenceLosesStreams := by
  intro s e run silence due
  have ran : exec .silenceTimeout s = .next (s.withDev (s.dev.silenced.invalidate s.dev.silencedQuantities)) := by
    rw [← expireSilence_due (by rw [silence]; exact due)]
    exact State.whenRunning_eq run (fun d => d.expireSilence)
  have same := aligned_invalidate s.dev.silenced s.dev.silencedQuantities
  have stream (i : Fin 24) := (stream_of_aligned same i).trans (silenced_stream s.dev i)
  obtain ⟨ring, timer⟩ := silenced_idle s.dev
  refine ⟨_, ran, rfl, (congrArg Sau.ring (sau_of_aligned same)).trans ring,
    (congrArg Sau.silence (sau_of_aligned same)).trans timer, fun i active => ?_, fun i idle => ?_, fun quiet => ?_, fun none => ?_⟩
  · simp only [State.withDev, stream i, active, if_true]
    exact ⟨rfl, rfl⟩
  · simp only [State.withDev, stream i, idle, Bool.false_eq_true, if_false]
  · by_cases left : s.dev.silencedQuantities = []
    · refine ⟨s.dev.silenced, ?_, silenced_listed s.dev⟩
      rw [Dev.flush_of_no_work _ ((silenced_work s.dev).trans quiet), left]
      rfl
    · refine ⟨s.dev.silenced.withdraw s.dev.silencedQuantities, by rw [invalidate_some left], ?_⟩
      rw [withdraw_mgt]
      exact silenced_listed s.dev
  · have nothing : s.dev.silencedQuantities = [] := by
      have idle (i : Fin 24) : (s.dev.stream i).state.inService = false := by
        have := none i
        cases h : (s.dev.stream i).state <;> simp_all [StreamState.inService]
      simp [Dev.silencedQuantities, idle]
    simp only [State.withDev, nothing]
    exact silenced_listed s.dev

end Sys2Proof.Machine

/-!
The ends of a WRITE's store write (R205 to R207): what each area's records do to the tables, with O31, and what they restart
(R24, R49, R64, R92, R153), with O32.
-/
namespace Sys2Proof.Machine

/-! ## The command -/

theorem exec_writeEnd {s : State} {c : Instr} {a : Nat} {ok : Bool} (run : s.power = .running) (ends : writeEnd c = some (a, ok)) :
    exec c s = .next (s.completeWrite a ok) := by
  unfold writeEnd at ends
  split at ends <;> cases ends <;> exact if_pos run

section
variable {s : State} {q : Request} {a first : Nat} {recs : List (List Int)}

theorem completeWrite_success (storing : s.dev.mgt.service = some ⟨q, .storing a first recs⟩) :
    s.completeWrite a true = { s with nv := s.nv.writeRecords a first recs, dev := s.dev.writeTaken q a first recs } := by
  simp [State.completeWrite, storing]

theorem completeWrite_failure (storing : s.dev.mgt.service = some ⟨q, .storing a first recs⟩) :
    s.completeWrite a false = s.withDev (s.dev.writeFailed q a) := by
  simp [State.completeWrite, storing, State.withDev]

theorem completeWrite_unawaited (unawaited : ∀ q first recs, s.dev.mgt.service ≠ some ⟨q, .storing a first recs⟩) (ok : Bool) :
    s.completeWrite a ok = s := by
  unfold State.completeWrite
  split
  next q x first recs storing =>
    refine if_neg (fun same => unawaited q first recs ?_)
    rw [storing, same]
  next => rfl

end

/-! ## The tables after a write -/

/-- The tables with the reports that wait, the clock and the mode. -/
def Dev.settings (d : Dev) : Tables × List Report × Count32 × Mode := (d.tab, d.work, d.now, d.mode)

theorem stored_of_settings {d e : Dev} (h : d.settings = e.settings) : d.stored = e.stored :=
  congrArg (fun v => ({ v.1 with causes := Vector.replicate 5 255 }, v.2.2)) h

section
variable (d : Dev) (first : Nat) (recs : List (List Int))

theorem groupsWritten_settings : (d.groupsWritten first recs).settings = (d.takeRecords 5 first recs).settings := by
  unfold Dev.groupsWritten
  exact forEach_keeps (fun x : Dev => x.settings = (d.takeRecords 5 first recs).settings) _ _ _ (fun _ _ h => h) rfl

theorem zonesWritten_settings : (d.zonesWritten first recs).settings = (d.takeRecords 8 first recs).settings := by
  unfold Dev.zonesWritten
  refine forEach_keeps (fun x : Dev => x.settings = (d.takeRecords 8 first recs).settings) _ _ _ (fun e x h => ?_) rfl
  split <;> exact h

theorem busesWritten_settings : (d.busesWritten first recs).settings = (d.takeRecords 10 first recs).settings := by
  unfold Dev.busesWritten
  exact forEach_keeps (fun x : Dev => x.settings = (d.takeRecords 10 first recs).settings) _ _ _ (fun _ _ h => h) rfl

theorem generatorsWritten_settings : (d.generatorsWritten first recs).settings = (d.takeRecords 14 first recs).settings := by
  unfold Dev.generatorsWritten
  refine forEach_keeps (fun x : Dev => x.settings = (d.takeRecords 14 first recs).settings) _ _ _ (fun g x h => ?_) rfl
  split <;> exact h

theorem captureWritten_settings : (d.captureWritten first recs).settings = (d.takeRecords 15 first recs).settings := rfl

/-- But for four areas a write reports nothing, and the tables take its records as they are. -/
theorem written_settings {a : Nat} (quiet : a ∉ [3, 6, 9, 11]) :
    (d.written a first recs).settings = (d.takeRecords a first recs).settings := by
  unfold Dev.written
  split
  case h_2 => exact groupsWritten_settings d first recs
  case h_4 => exact zonesWritten_settings d first recs
  case h_6 => exact busesWritten_settings d first recs
  case h_8 => exact generatorsWritten_settings d first recs
  case h_9 => exact captureWritten_settings d first recs
  case h_10 => rfl
  all_goals exact absurd quiet (by decide)

theorem idleIfEmpty_stored : d.idleIfEmpty.stored = d.stored := by
  unfold Dev.idleIfEmpty
  split <;> rfl

theorem restartStream_settings (i : Fin 24) (old : StreamEntry) : (d.restartStream i old).settings = d.settings := by
  unfold Dev.restartStream
  dsimp only
  split <;> rfl

theorem streamsWritten_stored : (d.streamsWritten first recs).stored = (d.takeRecords 3 first recs).stored := by
  refine (stored_invalidate _ _).trans ((idleIfEmpty_stored _).trans (stored_of_settings ?_))
  exact forEach_keeps (fun x : Dev => x.settings = (d.takeRecords 3 first recs).settings) _
    (fun i x => x.restartStream i (d.streamCfg i)) _ (fun i x h => (restartStream_settings x i _).trans h) rfl

/-- Elements are reset before the records are taken, under their old entries (R64). -/
def Dev.elementsReset (d : Dev) (first n : Nat) : Dev :=
  forEach (covered 32 first n) (fun e x => (x.resetElement e).modElement e (fun r => { r with opCount := 0, included := [] })) d

theorem resetElement_settings (e : Fin 32) :
    ((d.resetElement e).tab, (d.resetElement e).now, (d.resetElement e).mode) = (d.tab, d.now, d.mode) :=
  Withdraws.unoperate (P := fun x => (x.tab, x.now, x.mode) = (d.tab, d.now, d.mode))
    ⟨fun _ _ h => h, fun _ h => h, fun _ h => h, fun _ _ h => h, fun _ h => h, fun _ h => h⟩ e rfl

theorem elementsWritten_stored : (d.elementsWritten first recs).stored = (d.takeRecords 6 first recs).stored := by
  have kept : ((d.elementsReset first recs.length).tab, (d.elementsReset first recs.length).now,
      (d.elementsReset first recs.length).mode) = (d.tab, d.now, d.mode) :=
    forEach_keeps (fun x : Dev => (x.tab, x.now, x.mode) = (d.tab, d.now, d.mode)) _ (fun e x =>
      (x.resetElement e).modElement e (fun r => { r with opCount := 0, included := [] })) _
      (fun e x h => (resetElement_settings x e).trans h) rfl
  exact congrArg (fun v : Tables × Count32 × Mode =>
    ({ v.1.writeRecords 6 first recs with causes := Vector.replicate 5 255 }, v.2)) kept

/-- What a write does to one covered breaker, the device before the write having been `d` (R92). -/
def Dev.breakerWritten (d : Dev) (b : Fin 24) (x : Dev) : Dev :=
  if (d.breakerCfg b).addr = (x.breakerCfg b).addr then x.modBreaker b (fun r => { r with failedCfg := false })
  else (x.updateBreaker b (fun r => r.renewed x.now)).removeCommand b

theorem breakersWritten_eq :
    d.breakersWritten first recs = forEach (covered 24 first recs.length) d.breakerWritten (d.takeRecords 9 first recs) := rfl

theorem breakerWritten_stored (b : Fin 24) (x : Dev) : (d.breakerWritten b x).stored = x.stored := by
  unfold Dev.breakerWritten Dev.updateBreaker
  dsimp only
  split
  · rfl
  · split <;> rfl

theorem breakersWritten_stored : (d.breakersWritten first recs).stored = (d.takeRecords 9 first recs).stored :=
  forEach_keeps (fun x : Dev => x.stored = (d.takeRecords 9 first recs).stored) _ d.breakerWritten _
    (fun b x h => (breakerWritten_stored d b x).trans h) rfl

theorem sourceWritten_stored (x : Dev) (u : Utility) (old : Nat) : (x.sourceWritten u old).stored = x.stored := by
  have S := stored_evaluates x.stored
  unfold Dev.sourceWritten
  dsimp only
  split
  · rfl
  · refine S.modSource u _ ?_
    split
    · exact S.modTimer u _ rfl
    · exact S.setSource u _ _ rfl

theorem sourcesWritten_stored : (d.sourcesWritten first recs).stored = (d.takeRecords 11 first recs).stored :=
  ((stored_evaluates _).reexamine rfl).trans ((sourceWritten_stored _ _ _).trans (sourceWritten_stored _ _ _))

/-- Whatever a write reports, the tables take its records, and of them the causes alone may change further. -/
theorem written_stored (a : Nat) : (d.written a first recs).stored = (d.takeRecords a first recs).stored := by
  by_cases loud : a ∈ [3, 6, 9, 11]
  · simp only [List.mem_cons, List.not_mem_nil, or_false] at loud
    rcases loud with rfl | rfl | rfl | rfl
    · exact streamsWritten_stored d first recs
    · exact elementsWritten_stored d first recs
    · exact breakersWritten_stored d first recs
    · exact sourcesWritten_stored d first recs
  · exact stored_of_settings (written_settings d first recs loud)

end

theorem tab_of_stored {d e : Dev} (h : d.stored = e.stored) (c : Vector Nat 5) :
    { d.tab with causes := c } = { e.tab with causes := c } :=
  congrArg (fun v : Tables × Count32 × Mode => { v.1 with causes := c }) h

/-- Settles O31: `written` takes the records, and the taking of its reports changes the causes alone. -/
theorem writeCompletions : Obligations.WriteCompletions := by
  refine ⟨fun s c q a first recs run storing ends => ?_,
    fun s c a ok run ends => ⟨fun q first recs storing failed room => ?_, fun none => ?_⟩⟩
  · have stored := (stored_flush _).trans (written_stored s.dev first recs a)
    refine ⟨(s.dev.written a first recs).flush, ?_, tab_of_stored stored _, fun loud quiet => ?_,
      congrArg (fun v => v.2.1) stored, congrArg (fun v => v.2.2) stored⟩
    · rw [exec_writeEnd run ends, completeWrite_success storing]
      rfl
    · have taken := written_settings s.dev first recs loud
      rw [Dev.flush_of_no_work _ ((congrArg (fun v => v.2.1) taken).trans quiet)]
      exact congrArg Prod.fst taken
  · subst failed
    refine ⟨s.dev.recordError .storeFault a, ?_, bare_recordError _ _ _, recordError_listed (.inr room) a, ?_⟩
    · rw [exec_writeEnd run ends, completeWrite_failure storing]
      rfl
    · exact congrArg (fun v => v.mgt.1) (recordError_fixed s.dev .storeFault a)
  · rw [exec_writeEnd run ends, completeWrite_unawaited none]

/-! ## What a write restarts -/

/-- What one turn of a `forEach` brings about and no other turn undoes holds at its end. -/
theorem forEach_reaches {α β : Type} {I Q : β → Prop} {f : α → β → β} {x : α} (inv : ∀ y b, I b → I (f y b))
    (own : ∀ b, I b → Q (f x b)) (other : ∀ y b, y ≠ x → Q b → Q (f y b))
    {xs : List α} (mem : x ∈ xs) {b : β} (start : I b) :
    Q (forEach xs f b) := by
  have turn (y : α) (b : β) (h : I b) (done : Q b) : Q (f y b) := by
    by_cases same : y = x
    · exact same ▸ own b h
    · exact other y b same done
  have kept (xs : List α) (b : β) (h : I b) (done : Q b) : Q (forEach xs f b) :=
    (forEach_keeps (fun b => I b ∧ Q b) xs f b (fun y b h => ⟨inv y b h.1, turn y b h.1 h.2⟩) ⟨h, done⟩).2
  induction xs generalizing b with
  | nil => cases mem
  | cons y ys ih =>
    rcases List.mem_cons.mp mem with rfl | later
    · exact kept ys _ (inv _ b start) (own b start)
    · exact ih later (inv y b start)

theorem mem_covered {size first n : Nat} {i : Fin size} (low : first ≤ i.val) (high : i.val < first + n) :
    i ∈ covered size first n := by simp [covered, idsWhere, low, high]

section
variable (d : Dev) {first : Nat} {recs : List (List Int)}

theorem restartStream_stream (x : Dev) (i j : Fin 24) (old : StreamEntry) : (x.restartStream i old).stream j =
    if j = i then { state := if (x.streamCfg i).enable = 1 then .seeking else .off } else x.stream j := by
  unfold Dev.restartStream
  dsimp only
  split <;> exact Dev.modStream_stream _ i j _

theorem streamsWritten_stream {i : Fin 24} (low : first ≤ i.val) (high : i.val < first + recs.length) :
    (d.streamsWritten first recs).stream i =
      { state := if ((d.takeRecords 3 first recs).streamCfg i).enable = 1 then .seeking else .off } := by
  refine (stream_of_aligned (aligned_invalidate _ _) i).trans ((idleIfEmpty_stream _ i).trans ?_)
  refine forEach_reaches (f := fun i x => Dev.restartStream x i (d.streamCfg i))
    (I := fun x => x.settings = (d.takeRecords 3 first recs).settings)
    (Q := fun x => x.stream i = { state := if ((d.takeRecords 3 first recs).streamCfg i).enable = 1 then .seeking else .off })
    (fun j x h => (restartStream_settings x j _).trans h) (fun x h => ?_) (fun j x other h => ?_) (mem_covered low high) rfl
  · rw [restartStream_stream, if_pos rfl, Dev.streamCfg, show x.tab = _ from congrArg Prod.fst h]
    rfl
  · rw [restartStream_stream, if_neg other.symm]
    exact h

theorem groupsWritten_group {g : Fin 24} (low : first ≤ g.val) (high : g.val < first + recs.length) :
    (d.groupsWritten first recs).group g = { ref := (d.group g).ref, lastAt := (d.group g).lastAt } := by
  have group (k : Fin 24) (x : Dev) : ({ x with meas := { x.meas with groups := tmod x.meas.groups k GroupRec.restart } } : Dev).group g
      = if g = k then (x.group g).restart else x.group g := tget_tmod _ _ _ _
  unfold Dev.groupsWritten
  refine forEach_reaches (I := fun x : Dev => (x.group g).ref = (d.group g).ref ∧ (x.group g).lastAt = (d.group g).lastAt)
    (Q := fun x : Dev => x.group g = { ref := (d.group g).ref, lastAt := (d.group g).lastAt })
    (fun k x h => ?_) (fun x h => ?_) (fun k x other h => ?_) (mem_covered low high) ⟨rfl, rfl⟩
  · rw [group]
    split <;> exact h
  · rw [group, if_pos rfl, ← h.1, ← h.2]
    rfl
  · rw [group, if_neg other.symm]
    exact h

theorem Dev.modElement_element (x : Dev) (e k : Fin 32) (f : ElementRec → ElementRec) :
    (x.modElement e f).element k = if k = e then f (x.element k) else x.element k := tget_tmod _ _ _ _

theorem markSource_element (x : Dev) (e k : Fin 32) (on : Bool) : (x.markSource e on).element k = x.element k := by
  unfold Dev.markSource
  split <;> rfl

theorem unoperate_element (x : Dev) (e k : Fin 32) : (x.unoperate e).element k =
    if k = e then { x.element k with operated := false } else x.element k := by
  unfold Dev.unoperate
  split
  · rw [markSource_element, Dev.modElement_element]
  next idle =>
    split
    next same =>
      have idle : (x.element k).operated = false := by simpa [same] using idle
      rw [← idle]
    · rfl

theorem resetElement_element (x : Dev) (e k : Fin 32) : (x.resetElement e).element k =
    if k = e then { (x.element k).resetState with forced := .none } else x.element k := by
  rw [Dev.resetElement, Dev.modElement_element, unoperate_element]
  split <;> rfl

/-- An element whose entry is written keeps the instant of its last evaluation alone (R64). -/
theorem elementsWritten_element {e : Fin 32} (low : first ≤ e.val) (high : e.val < first + recs.length) :
    (d.elementsWritten first recs).element e = { lastAt := (d.element e).lastAt } := by
  have turn (k : Fin 32) (x : Dev) : ((x.resetElement k).modElement k (fun r => { r with opCount := 0, included := [] })).element e
      = if e = k then { lastAt := (x.element e).lastAt } else x.element e := by
    rw [Dev.modElement_element, resetElement_element]
    split <;> rfl
  unfold Dev.elementsWritten
  refine forEach_reaches (f := fun e x => (Dev.resetElement x e).modElement e (fun r => { r with opCount := 0, included := [] }))
    (I := fun x : Dev => (x.element e).lastAt = (d.element e).lastAt)
    (Q := fun x : Dev => x.element e = { lastAt := (d.element e).lastAt })
    (fun k x h => ?_) (fun x h => ?_) (fun k x other h => ?_) (mem_covered low high) rfl
  · rw [turn]
    split <;> exact h
  · rw [turn, if_pos rfl, h]
  · rw [turn, if_neg other.symm]
    exact h

theorem updateBreaker_breaker (x : Dev) (b k : Fin 24) (f : BreakerRec → BreakerRec) :
    (x.updateBreaker b f).breaker k = if k = b then f (x.breaker k) else x.breaker k := by
  unfold Dev.updateBreaker
  dsimp only
  split <;> exact Dev.modBreaker_breaker x b k f

theorem breakerWritten_breaker (x : Dev) (b k : Fin 24) : (d.breakerWritten k x).breaker b =
    if b = k then
      if (d.breakerCfg k).addr = (x.breakerCfg k).addr then { x.breaker b with failedCfg := false } else (x.breaker b).renewed x.now
    else x.breaker b := by
  unfold Dev.breakerWritten
  split
  · exact Dev.modBreaker_breaker _ _ _ _
  · exact updateBreaker_breaker _ _ _ _

/-- A breaker whose written address differs has the status of reset, but for its forcing and its next command id (R92). -/
theorem breakersWritten_breaker {b : Fin 24} (low : first ≤ b.val) (high : b.val < first + recs.length)
    (changed : ((d.takeRecords 9 first recs).breakerCfg b).addr ≠ (d.breakerCfg b).addr) :
    (d.breakersWritten first recs).breaker b = (d.breaker b).renewed d.now := by
  rw [breakersWritten_eq]
  refine forEach_reaches (I := fun x : Dev => x.stored = (d.takeRecords 9 first recs).stored ∧
      (x.breaker b).forced = (d.breaker b).forced ∧ (x.breaker b).nextId = (d.breaker b).nextId)
    (Q := fun x : Dev => x.breaker b = (d.breaker b).renewed d.now) (fun k x h => ?_) (fun x h => ?_) (fun k x other h => ?_)
    (mem_covered low high) ⟨rfl, rfl, rfl⟩
  · obtain ⟨stored, forced, id⟩ := h
    refine ⟨(breakerWritten_stored d k x).trans stored, ?_⟩
    rw [breakerWritten_breaker]
    split
    · split <;> exact ⟨forced, id⟩
    · exact ⟨forced, id⟩
  · obtain ⟨stored, forced, id⟩ := h
    have new : (x.breakerCfg b).addr = ((d.takeRecords 9 first recs).breakerCfg b).addr :=
      congrArg (fun v : Tables × Count32 × Mode => (tget v.1.breakers b).addr) stored
    have clock : x.now = d.now := congrArg (fun v => v.2.1) stored
    rw [breakerWritten_breaker, if_pos rfl, if_neg (fun same => changed (new.symm.trans same.symm)), BreakerRec.renewed, forced, id,
      clock]
    rfl
  · rw [breakerWritten_breaker, if_neg other.symm]
    exact h

/-- A set whose written controller address differs has the report of reset (R153). -/
theorem generatorsWritten_gen {g : Fin 6} (low : first ≤ g.val) (high : g.val < first + recs.length)
    (changed : ((d.takeRecords 14 first recs).genCfg g).addr ≠ (d.genCfg g).addr) :
    ((d.generatorsWritten first recs).gen g).report = (.unknown, false, true, d.now, false) := by
  have turn (k : Fin 6) (x : Dev) (f : GenRec → GenRec) : (x.modGen k f).gen g = if g = k then f (x.gen g) else x.gen g :=
    tget_tmod _ _ _ _
  unfold Dev.generatorsWritten
  refine forEach_reaches (I := fun x => x.settings = (d.takeRecords 14 first recs).settings)
    (Q := fun x : Dev => (x.gen g).report = (.unknown, false, true, d.now, false))
    (fun k x h => ?_) (fun x h => ?_) (fun k x other h => ?_) (mem_covered low high) rfl
  · split <;> exact h
  · have new : (x.genCfg g).addr = ((d.takeRecords 14 first recs).genCfg g).addr :=
      congrArg (fun v => (tget v.1.gens g).addr) h
    rw [if_neg (fun same => changed (new.symm.trans same.symm)), turn, if_pos rfl,
      ← show x.now = d.now from congrArg (fun v => v.2.2.1) h]
    rfl
  · split
    · exact h
    · rw [turn, if_neg other.symm]
      exact h

end

/-- Settles O32: what a write restarts stands as its reports are taken and its response begins. -/
theorem writtenEntriesRestart : Obligations.WrittenEntriesRestart := by
  intro s c q a first recs run storing ends
  have fixed : (s.dev.writeTaken q a first recs).fixed = (s.dev.written a first recs).fixed :=
    (respond_fixed _ _ _).trans (flush_fixed _)
  have tab := (congrArg Fixed.tab fixed).trans (congrArg Prod.fst (written_stored s.dev first recs a))
  refine ⟨_, (exec_writeEnd run ends).trans (congrArg _ (completeWrite_success storing)), ?_, ?_, ?_, ?_, ?_⟩
  · rintro rfl i low high
    have config : (s.dev.writeTaken q 3 first recs).streamCfg i = (s.dev.takeRecords 3 first recs).streamCfg i :=
      (congrArg (fun t : Tables => tget t.streams i) tab :)
    rw [config]
    exact (congrArg (fun v : Fixed => tget v.sau.streams i) fixed).trans (streamsWritten_stream s.dev low high)
  · rintro rfl g low high
    exact (congrArg (fun v : Fixed => tget v.meas.groups g) fixed).trans (groupsWritten_group s.dev low high)
  · rintro rfl e low high
    exact (congrArg (fun v : Fixed => tget v.prot.elements e) fixed).trans (elementsWritten_element s.dev low high)
  · rintro rfl b low high changed
    have config : (s.dev.writeTaken q 9 first recs).breakerCfg b = (s.dev.takeRecords 9 first recs).breakerCfg b :=
      (congrArg (fun t : Tables => tget t.breakers b) tab :)
    have report := (congrFun (congrArg Fixed.breakers fixed) b).trans
      (congrArg BreakerRec.report (breakersWritten_breaker s.dev low high (config ▸ changed)))
    simp only [Dev.fixed, BreakerRec.report, BreakerRec.renewed, Prod.mk.injEq] at report
    obtain ⟨reported, forced, isLocal, spring, age, aged, -⟩ := report
    exact ⟨reported, isLocal, spring, age, aged, forced⟩
  · rintro rfl g low high changed
    have config : (s.dev.writeTaken q 14 first recs).genCfg g = (s.dev.takeRecords 14 first recs).genCfg g :=
      (congrArg (fun t : Tables => tget t.gens g) tab :)
    have report := (congrFun (congrArg Fixed.gens fixed) g).trans (generatorsWritten_gen s.dev low high (config ▸ changed))
    simp only [Dev.fixed, GenRec.report, Prod.mk.injEq] at report
    exact report

end Sys2Proof.Machine

/-!
Records as bytes (R202 to R205): a scalar that fits its field is read back from its bytes, and a record from the values of its
scalars, so that WRITE takes what READ gives (O34).
-/
namespace Sys2Proof.Machine

/-! ## Scalars -/

theorem beBytes_length (w : Nat) (v : Int) : (beBytes w v).length = w := by
  induction w with
  | zero => rfl
  | succ w ih => exact congrArg (· + 1) ih

theorem natOfBytes_cons (b : Byte) (bs : List Byte) : natOfBytes (b :: bs) = b.toNat * 256 ^ bs.length + natOfBytes bs := by
  have fold (bs : List Byte) (acc : Nat) :
      bs.foldl (fun acc b => acc * 256 + b.toNat) acc = acc * 256 ^ bs.length + natOfBytes bs := by
    induction bs generalizing acc with
    | nil => simp [natOfBytes]
    | cons x xs ih =>
      simp only [natOfBytes, List.foldl_cons, List.length_cons]
      rw [ih, ih (0 * 256 + x.toNat)]
      ring
  simpa [natOfBytes] using fold bs (0 * 256 + b.toNat)

/-- The bytes of a number spell its remainder at their width. -/
theorem natOfBytes_beBytes (w : Nat) (v : Int) : (natOfBytes (beBytes w v) : Int) = v % 256 ^ w := by
  induction w with
  | zero => simp [beBytes, natOfBytes]
  | succ w ih =>
    have top : ((BitVec.ofInt 8 (v / (256 : Int) ^ w)).toNat : Int) = v / 256 ^ w % 256 := by
      rw [BitVec.toNat_ofInt]
      exact Int.toNat_of_nonneg (Int.emod_nonneg _ (by decide))
    have split : v % (256 ^ w * 256) = v % 256 ^ w + 256 ^ w * (v / 256 ^ w % 256) := by
      rw [Int.emod_def, Int.emod_def v, Int.emod_def (v / 256 ^ w), Int.ediv_ediv_of_nonneg (by positivity)]
      ring
    rw [beBytes, natOfBytes_cons, beBytes_length]
    push_cast
    rw [top, ih, pow_succ, split]
    ring

theorem natOfBytes_of_fits {w : Nat} {v : Int} (low : 0 ≤ v) (high : v < 2 ^ (8 * w)) :
    (natOfBytes (beBytes w v) : Int) = v := by
  rw [natOfBytes_beBytes]
  exact Int.emod_eq_of_lt low (by rwa [pow_mul] at high)

theorem intOfBytes_of_fits {w : Nat} {v : Int} (wide : 0 < w) (low : -(2 : Int) ^ (8 * w - 1) ≤ v) (high : v < 2 ^ (8 * w - 1)) :
    intOfBytes (beBytes w v) = v := by
  have double : (2 : Int) ^ (8 * w) = 2 * 2 ^ (8 * w - 1) := by
    rw [← pow_succ']
    congr 1
    omega
  have spelt : (natOfBytes (beBytes w v) : Int) = v % 2 ^ (8 * w) := by rw [natOfBytes_beBytes, pow_mul]; rfl
  have half : ((2 ^ (8 * w - 1) : Nat) : Int) = 2 ^ (8 * w - 1) := by push_cast; rfl
  unfold intOfBytes
  rw [beBytes_length]
  dsimp only
  rcases lt_or_ge v 0 with negative | positive
  · have wrapped : v % 2 ^ (8 * w) = v + 2 ^ (8 * w) := by
      rw [← Int.add_emod_right]
      exact Int.emod_eq_of_lt (by omega) (by omega)
    rw [if_neg (by omega), spelt, wrapped]
    omega
  · have same : v % 2 ^ (8 * w) = v := Int.emod_eq_of_lt positive (by omega)
    rw [if_pos (by omega), spelt, same]

/-- The widths and signs of a record's scalars. -/
def layoutOf (fs : List Field) : List (Nat × Bool) := fs.flatten.map (fun s => (s.width, s.signed))

/-- The values of a record's scalars. -/
def valuesOf (fs : List Field) : List Int := fs.flatten.map Scalar.value

/-- Scalars that fit are read back from their bytes, whatever follows. -/
theorem readScalars_fieldBytes (xs : List Scalar) (fits : ∀ x ∈ xs, x.fits) (wide : ∀ x ∈ xs, 0 < x.width) (rest : List Byte) :
    readScalars (xs.map (fun s => (s.width, s.signed))) (fieldBytes xs ++ rest) = xs.map Scalar.value := by
  induction xs with
  | nil => rfl
  | cons x xs ih =>
    have bytes : fieldBytes (x :: xs) ++ rest = beBytes x.width x.value ++ (fieldBytes xs ++ rest) := List.append_assoc _ _ _
    have first : (beBytes x.width x.value ++ (fieldBytes xs ++ rest)).take x.width = beBytes x.width x.value :=
      List.take_left' (beBytes_length _ _)
    have later : (beBytes x.width x.value ++ (fieldBytes xs ++ rest)).drop x.width = fieldBytes xs ++ rest :=
      List.drop_left' (beBytes_length _ _)
    have fitting := fits x (List.mem_cons_self ..)
    rw [bytes, List.map_cons, readScalars, first, later,
      ih (fun y h => fits y (List.mem_cons_of_mem x h)) (fun y h => wide y (List.mem_cons_of_mem x h)), List.map_cons]
    congr 1
    unfold Scalar.fits at fitting
    split at fitting
    next signed => rw [if_pos signed]; exact intOfBytes_of_fits (wide x (List.mem_cons_self ..)) fitting.1 fitting.2
    next unsigned => rw [if_neg unsigned]; exact natOfBytes_of_fits fitting.1 fitting.2

/-! ## Records -/

/-- The fields of an entry and the reading of their values belong together: every entry has the same layout, no scalar of it is
empty, and the values give the entry back. -/
structure Codec {E : Type} (fields : E → List Field) (ofInts : List Int → E) : Prop where
  layout : ∀ e e', layoutOf (fields e) = layoutOf (fields e')
  wide   : ∃ e, ∀ p ∈ layoutOf (fields e), 0 < p.1
  values : ∀ e, ofInts (valuesOf (fields e)) = e

theorem fieldBytes_flatten (fs : List Field) : fs.flatMap fieldBytes = fieldBytes fs.flatten := by
  rw [← List.flatMap_id, fieldBytes, List.flatMap_assoc]
  rfl

/-- A record whose values fit is read back from the bytes that READ gives of it. -/
theorem Codec.readRecord {E : Type} {fields : E → List Field} {ofInts : List Int → E} (C : Codec fields ofInts) {d : Dev}
    {a i : Nat} {e fresh : E} (held : d.areaFields a i = fields e) (default : ({} : Dev).areaFields a i = fields fresh)
    (fits : ∀ x ∈ (d.areaFields a i).flatten, x.fits) : ofInts (readRecord a i (d.recordBytes a i)) = e := by
  have layout : areaLayout a i = layoutOf (fields e) := (congrArg layoutOf default).trans (C.layout fresh e)
  obtain ⟨shown, positive⟩ := C.wide
  rw [← C.layout e shown] at positive
  have wide : ∀ x ∈ (fields e).flatten, 0 < x.width := fun x member => positive _ (List.mem_map_of_mem member)
  unfold Machine.readRecord Dev.recordBytes padTo
  rw [held] at fits ⊢
  rw [layout, fieldBytes_flatten]
  exact (congrArg ofInts (readScalars_fieldBytes _ fits wide _)).trans (C.values e)

end Sys2Proof.Machine

/-!
The codecs of the stored records (R22, R42, R49, R63, R74, R78, R91, R98, R120, R127, R128, R151, R152, R184, R206, R207), and O34
from them.
-/
namespace Sys2Proof.Machine

/-! ## Parts of a record -/

section
variable {α : Type} {n c : Nat}

/-- Parts of one layout lay out alike, whatever they hold. -/
theorem flatMap_const_toList {β : Type} (v : Vector α n) (x : List β) :
    v.toList.flatMap (fun _ => x) = (List.replicate n x).flatten := by
  rw [List.flatMap, List.map_const', Vector.length_toList]

theorem length_flatMap_toList {β : Type} (v : Vector α n) {g : α → List β} (len : ∀ x, (g x).length = c) :
    (v.toList.flatMap g).length = n * c := by
  simp [List.length_flatMap, len]

section
variable {pre post : List Int} {v : Vector α n} {g : α → List Int}

/-- The j-th value of the i-th of equally long parts, which come after others. -/
theorem nat_part (c : Nat) (len : ∀ x, (g x).length = c) (i : Fin n) {j k : Nat} (inside : j < c)
    (place : k = pre.length + (c * i.val + j)) : nat (pre ++ (v.toList.flatMap g ++ post)) k = nat (g (tget v i)) j := by
  obtain ⟨left, right, parts, before⟩ : ∃ left right,
      v.toList.flatMap g = left ++ (g (tget v i) ++ right) ∧ left.length = c * i.val := by
    refine ⟨(v.toList.take i.val).flatMap g, (v.toList.drop (i.val + 1)).flatMap g, ?_, ?_⟩
    · have split : v.toList = v.toList.take i.val ++ tget v i :: v.toList.drop (i.val + 1) := by
        have rest := List.drop_eq_getElem_cons (l := v.toList) (i := i.val) (by simp)
        exact (List.take_append_drop i.val v.toList).symm.trans (congrArg _ (rest.trans (by simp [tget])))
      rw [← List.flatMap_cons, ← List.flatMap_append, ← split]
    · simp [List.length_flatMap, len, Nat.mul_comm]
  unfold nat
  rw [place, List.getD_append_right _ _ _ _ (by omega), Nat.add_sub_cancel_left, parts, List.append_assoc,
    List.getD_append_right _ _ _ _ (by omega), before, Nat.add_sub_cancel_left, List.append_assoc,
    List.getD_append _ _ _ _ (by rw [len]; exact inside)]

/-- The j-th value after equally long parts. -/
theorem nat_after (c : Nat) (len : ∀ x, (g x).length = c) {j k : Nat} (place : k = pre.length + (n * c + j)) :
    nat (pre ++ (v.toList.flatMap g ++ post)) k = nat post j := by
  have parts := length_flatMap_toList v len
  unfold nat
  rw [place, List.getD_append_right _ _ _ _ (by omega), Nat.add_sub_cancel_left, List.getD_append_right _ _ _ _ (by omega), parts,
    Nat.add_sub_cancel_left]

end

theorem map_cast_toList (v : Vector Nat n) : v.toList.map (Nat.cast : Nat → Int) = v.toList.flatMap (fun x : Nat => [(x : Int)]) :=
  List.map_eq_flatMap

/-- The i-th of a list of numbers that comes after others. -/
theorem nat_number {pre post : List Int} {v : Vector Nat n} (i : Fin n) {k : Nat} (place : k = pre.length + i.val) :
    nat (pre ++ (v.toList.map Nat.cast ++ post)) k = tget v i := by
  rw [map_cast_toList, nat_part 1 (fun _ => rfl) i (j := 0) (by decide) (by simpa using place)]
  rfl

/-- The j-th value after a list of numbers. -/
theorem nat_after_numbers {pre post : List Int} {v : Vector Nat n} {j k : Nat} (place : k = pre.length + (n + j)) :
    nat (pre ++ (v.toList.map Nat.cast ++ post)) k = nat post j := by
  rw [map_cast_toList]
  exact nat_after 1 (fun _ => rfl) (by simpa using place)

theorem vector_ext_tget {v w : Vector α n} (same : ∀ i, tget v i = tget w i) : v = w := by
  ext i h
  exact same ⟨i, h⟩

end

/-! ## The codecs -/

theorem DeviceEntry.codec : Codec DeviceEntry.fields DeviceEntry.ofInts := ⟨fun _ _ => rfl, ⟨{}, by decide⟩, fun _ => rfl⟩

theorem number_codec : Codec (fun n : Nat => [fU 1 n]) (fun v => nat v 0) := ⟨fun _ _ => rfl, ⟨0, by decide⟩, fun _ => rfl⟩

theorem BusEntry.codec : Codec BusEntry.fields BusEntry.ofInts := ⟨fun _ _ => rfl, ⟨{}, by decide⟩, fun _ => rfl⟩

theorem SourceEntry.codec : Codec SourceEntry.fields SourceEntry.ofInts := ⟨fun _ _ => rfl, ⟨{}, by decide⟩, fun _ => rfl⟩

theorem GenEntry.codec : Codec GenEntry.fields GenEntry.ofInts := ⟨fun _ _ => rfl, ⟨{}, by decide⟩, fun _ => rfl⟩

theorem ParEntry.codec : Codec ParEntry.fields ParEntry.ofInts := ⟨fun _ _ => rfl, ⟨{}, by decide⟩, fun _ => rfl⟩

theorem LockEntry.codec : Codec LockEntry.fields LockEntry.ofInts := ⟨fun _ _ => rfl, ⟨{}, by decide⟩, fun _ => rfl⟩

/-- The values of a pair of a channel map. -/
def pairValues (p : Nat × Nat) : List Int := [(p.1 : Int), p.2]

theorem StreamEntry.values (e : StreamEntry) : valuesOf e.fields =
    [(e.enable : Int), e.source, e.count] ++ (e.slots.toList.flatMap pairValues ++ [(e.delay : Int), e.forward]) := by
  simp [valuesOf, StreamEntry.fields, fU, sU, List.map_flatMap]
  rfl

theorem StreamEntry.codec : Codec StreamEntry.fields StreamEntry.ofInts where
  layout e e' := by simp [layoutOf, StreamEntry.fields, fU, sU, List.map_flatMap, flatMap_const_toList]
  wide := ⟨{}, by decide⟩
  values e := by
    rw [StreamEntry.values]
    cases e
    simp only [StreamEntry.ofInts, StreamEntry.mk.injEq]
    refine ⟨rfl, rfl, rfl, vector_ext_tget (fun i => ?_), nat_after 2 (fun _ => rfl) (j := 0) rfl,
      nat_after 2 (fun _ => rfl) (j := 1) rfl⟩
    rw [tget_ofFn]
    exact Prod.ext (nat_part 2 (fun _ => rfl) i (j := 0) (by decide) (by simp))
      (nat_part 2 (fun _ => rfl) i (j := 1) (by decide) (by simp; omega))

theorem GroupEntry.values (e : GroupEntry) : valuesOf e.fields =
    [] ++ (e.phaseI.toList.map Nat.cast ++ ([] ++ (e.phaseV.toList.map Nat.cast
      ++ [(e.neutral : Int), e.nominal, e.rating, e.bus]))) := by
  simp [valuesOf, GroupEntry.fields, fU, sU, Function.comp_def]

theorem GroupEntry.codec : Codec GroupEntry.fields GroupEntry.ofInts where
  layout e e' := by simp [layoutOf, GroupEntry.fields, fU, sU, Function.comp_def]
  wide := ⟨{}, by decide⟩
  values e := by
    rw [GroupEntry.values]
    cases e
    simp only [GroupEntry.ofInts, GroupEntry.mk.injEq]
    have later {v w : Vector Nat 3} {post : List Int} {j k : Nat} (place : k = 6 + j) :
        nat ([] ++ (v.toList.map Nat.cast ++ ([] ++ (w.toList.map Nat.cast ++ post)))) k = nat post j :=
      (nat_after_numbers (j := 3 + j) (by simp; omega)).trans (nat_after_numbers (by simp))
    refine ⟨vector_ext_tget (fun i => ?_), vector_ext_tget (fun i => ?_), later (j := 0) rfl, later (j := 1) rfl, later (j := 2) rfl,
      later (j := 3) rfl⟩
    · rw [tget_ofFn]
      exact nat_number i (by simp)
    · rw [tget_ofFn]
      exact (nat_after_numbers (j := i.val) (by simp)).trans (nat_number i (by simp))

theorem ElementEntry.values (e : ElementEntry) : valuesOf e.fields =
    [(e.enable : Int), e.kind, e.source, e.pickup, e.maintPickup, e.curve, e.dial, e.delay, e.resetMode, e.decay, e.phaseMode, e.slope,
      e.tripCount] ++ (e.trip.toList.map Nat.cast ++ [(e.lockout : Int), e.block, e.bf, e.monitor, e.capture]) := by
  simp [valuesOf, ElementEntry.fields, fU, fI, sU, sI, Function.comp_def]

theorem ElementEntry.codec : Codec ElementEntry.fields ElementEntry.ofInts where
  layout e e' := by simp [layoutOf, ElementEntry.fields, fU, fI, sU, sI, Function.comp_def]
  wide := ⟨{}, by decide⟩
  values e := by
    rw [ElementEntry.values]
    cases e
    simp only [ElementEntry.ofInts, ElementEntry.mk.injEq]
    refine ⟨rfl, rfl, rfl, rfl, rfl, rfl, rfl, rfl, rfl, rfl, rfl, rfl, rfl, vector_ext_tget (fun i => ?_),
      nat_after_numbers (j := 0) rfl, nat_after_numbers (j := 1) rfl, nat_after_numbers (j := 2) rfl, nat_after_numbers (j := 3) rfl,
      nat_after_numbers (j := 4) rfl⟩
    rw [tget_ofFn]
    exact nat_number i (by simp)

theorem curve_codec : Codec (fun c : Vector Nat 48 => c.toList.map (fU 2)) (fun v => Vector.ofFn (fun j => nat v j.val)) where
  layout e e' := by
    rw [layoutOf, layoutOf, ← List.flatMap_def, ← List.flatMap_def]
    simp [fU, sU, List.map_flatMap, flatMap_const_toList]
  wide := ⟨Vector.replicate 48 0, by decide⟩
  values e := by
    have values : valuesOf (e.toList.map (fU 2)) = [] ++ (e.toList.map Nat.cast ++ []) := by
      rw [valuesOf, ← List.flatMap_def, map_cast_toList]
      simp [fU, sU, List.map_flatMap]
    rw [values]
    refine vector_ext_tget (fun i => ?_)
    rw [tget_ofFn]
    exact nat_number i (by simp)

/-- The values of a zone's member. -/
def ZoneMember.values (m : ZoneMember) : List Int := [(m.breaker : Int), m.group, m.polarity, m.switched]

theorem ZoneEntry.values (e : ZoneEntry) :
    valuesOf e.fields = [(e.count : Int)] ++ (e.members.toList.flatMap ZoneMember.values ++ []) := by
  simp [valuesOf, ZoneEntry.fields, sU, List.map_flatMap]
  rfl

theorem ZoneEntry.codec : Codec ZoneEntry.fields ZoneEntry.ofInts where
  layout e e' := by simp [layoutOf, ZoneEntry.fields, sU, List.map_flatMap, flatMap_const_toList]
  wide := ⟨{}, by decide⟩
  values e := by
    rw [ZoneEntry.values]
    have part (i : Fin 10) {j k : Nat} (inside : j < 4) (place : k = 1 + (4 * i.val + j)) :
        nat ([(e.count : Int)] ++ (e.members.toList.flatMap ZoneMember.values ++ [])) k = nat (tget e.members i).values j :=
      nat_part 4 (fun _ => rfl) i inside place
    cases e
    simp only [ZoneEntry.ofInts, ZoneEntry.mk.injEq]
    refine ⟨rfl, vector_ext_tget (fun i => ?_)⟩
    rw [tget_ofFn, part i (j := 0) (by decide) (by omega), part i (j := 1) (by decide) (by omega),
      part i (j := 2) (by decide) (by omega), part i (j := 3) (by decide) (by omega)]
    rfl

/-- The values of a close permissive term. -/
def PermTerm.values (t : PermTerm) : List Int := [(t.cond : Int), t.id]

theorem BreakerEntry.values (e : BreakerEntry) : valuesOf e.fields =
    [(e.addr : Int), e.kind, e.side1, e.side2, e.timeout, e.bfDelay, e.backupCount] ++ (e.backup.toList.map Nat.cast ++
      ([(e.permCount : Int)] ++ (e.perms.toList.flatMap PermTerm.values ++ [(e.lockout : Int)]))) := by
  simp [valuesOf, BreakerEntry.fields, fU, sU, List.map_flatMap, Function.comp_def]
  rfl

theorem BreakerEntry.codec : Codec BreakerEntry.fields BreakerEntry.ofInts where
  layout e e' := by simp [layoutOf, BreakerEntry.fields, fU, sU, List.map_flatMap, flatMap_const_toList, Function.comp_def]
  wide := ⟨{}, by decide⟩
  values e := by
    rw [BreakerEntry.values]
    set tail := [(e.permCount : Int)] ++ (e.perms.toList.flatMap PermTerm.values ++ [(e.lockout : Int)]) with htail
    have later {j k : Nat} (place : k = 11 + j) : nat ([(e.addr : Int), e.kind, e.side1, e.side2, e.timeout, e.bfDelay, e.backupCount]
        ++ (e.backup.toList.map Nat.cast ++ tail)) k = nat tail j := nat_after_numbers (by simp; omega)
    have part (i : Fin 4) {j k : Nat} (inside : j < 2) (place : k = 1 + (2 * i.val + j)) : nat tail k = nat (tget e.perms i).values j :=
      nat_part 2 (fun _ => rfl) i inside place
    have last : nat tail 9 = e.lockout := nat_after 2 (fun _ => rfl) (j := 0) rfl
    cases e
    simp only [BreakerEntry.ofInts, BreakerEntry.mk.injEq]
    refine ⟨rfl, rfl, rfl, rfl, rfl, rfl, rfl, vector_ext_tget (fun i => ?_), later (j := 0) rfl, vector_ext_tget (fun i => ?_),
      (later (j := 9) rfl).trans last⟩
    · rw [tget_ofFn]
      exact nat_number i (by simp)
    · rw [tget_ofFn, later (j := 1 + 2 * i.val) (by omega), later (j := 2 + 2 * i.val) (by omega),
        part i (j := 0) (by decide) (by omega), part i (j := 1) (by decide) (by omega)]
      rfl

/-- The values of a scheme's step. -/
def StepEntry.values (s : StepEntry) : List Int := [(s.kind : Int), s.object, s.cond, s.time, s.link]

theorem SchemeEntry.values (e : SchemeEntry) : valuesOf e.fields =
    [(e.count : Int), e.limit, e.tripBreaker] ++ (e.steps.toList.flatMap StepEntry.values ++ []) := by
  simp [valuesOf, SchemeEntry.fields, fU, sU, List.map_flatMap]
  rfl

theorem SchemeEntry.codec : Codec SchemeEntry.fields SchemeEntry.ofInts where
  layout e e' := by simp [layoutOf, SchemeEntry.fields, fU, sU, List.map_flatMap, flatMap_const_toList]
  wide := ⟨{}, by simp [layoutOf, SchemeEntry.fields, fU, sU, List.map_flatMap, flatMap_const_toList]⟩
  values e := by
    rw [SchemeEntry.values]
    have part (i : Fin 32) {j k : Nat} (inside : j < 5) (place : k = 3 + (5 * i.val + j)) :
        nat ([(e.count : Int), e.limit, e.tripBreaker] ++ (e.steps.toList.flatMap StepEntry.values ++ [])) k
          = nat (tget e.steps i).values j := nat_part 5 (fun _ => rfl) i inside place
    cases e
    simp only [SchemeEntry.ofInts, SchemeEntry.mk.injEq]
    refine ⟨rfl, rfl, rfl, vector_ext_tget (fun i => ?_)⟩
    rw [tget_ofFn, part i (j := 0) (by decide) (by omega), part i (j := 1) (by decide) (by omega),
      part i (j := 2) (by decide) (by omega), part i (j := 3) (by decide) (by omega), part i (j := 4) (by decide) (by omega)]
    rfl

theorem CaptureEntry.values (e : CaptureEntry) : valuesOf e.fields = [(e.count : Int)] ++ (e.channels.toList.map Nat.cast ++
    [(e.pre : Int), e.post, e.policy, e.element, e.transfer, e.gen, e.manual]) := by
  simp [valuesOf, CaptureEntry.fields, fU, sU, Function.comp_def]

theorem CaptureEntry.codec : Codec CaptureEntry.fields CaptureEntry.ofInts where
  layout e e' := by simp [layoutOf, CaptureEntry.fields, fU, sU, Function.comp_def]
  wide := ⟨{}, by decide⟩
  values e := by
    rw [CaptureEntry.values]
    cases e
    simp only [CaptureEntry.ofInts, CaptureEntry.mk.injEq]
    refine ⟨rfl, vector_ext_tget (fun i => ?_), nat_after_numbers (j := 0) rfl, nat_after_numbers (j := 1) rfl,
      nat_after_numbers (j := 2) rfl, nat_after_numbers (j := 3) rfl, nat_after_numbers (j := 4) rfl, nat_after_numbers (j := 5) rfl,
      nat_after_numbers (j := 6) rfl⟩
    rw [tget_ofFn]
    exact nat_number i (by simp)

/-! ## READ, then WRITE -/

@[simp] theorem tset_tget {α : Type} {n : Nat} (v : Vector α n) (i : Fin n) : tset v i (tget v i) = v := by
  refine vector_ext_tget (fun j => ?_)
  by_cases here : j = i
  · rw [here, tget_tset_same]
  · rw [tget_tset_ne _ _ _ _ here]

theorem elim_toId {n : Nat} {β : Type} (k : Fin n) (x : β) (f : Fin n → β) : (toId n k.val).elim x f = f k := by
  rw [toId_val]
  rfl

/-- A table whose record is written with what READ gives of it stays as it is; `keep` says what a write keeps of the old entry. -/
theorem Codec.writeRecord_read {E : Type} {n : Nat} {fields : E → List Field} {ofInts : List Int → E} (C : Codec fields ofInts)
    {d : Dev} (a : Nat) (k : Fin n) (table : Tables → Vector E n) (put : Tables → Vector E n → Tables) (keep : E → E → E)
    (area : ∀ d : Dev, d.areaFields a k.val = fields (tget (table d.tab) k))
    (write : ∀ t v, Tables.writeRecord t a k.val v = put t (tset (table t) k (keep (tget (table t) k) (ofInts v))))
    (same : ∀ e, keep e e = e) (back : ∀ t, put t (table t) = t) (fits : ∀ x ∈ (d.areaFields a k.val).flatten, x.fits) :
    d.tab.writeRecord a k.val (Machine.readRecord a k.val (d.recordBytes a k.val)) = d.tab := by
  rw [write, C.readRecord (area d) (area {}) fits, same, tset_tget, back]

/-- Settles O34: each area's records have a codec, and what a write keeps of an entry beside its record is what it holds. -/
theorem readThenWriteKeepsTables : Obligations.ReadThenWriteKeepsTables := by
  intro d a i area record fits
  have areas : a = 2 ∨ a = 3 ∨ a = 4 ∨ a = 5 ∨ a = 6 ∨ a = 7 ∨ a = 8 ∨ a = 9 ∨
      a = 10 ∨ a = 11 ∨ a = 12 ∨ a = 13 ∨ a = 14 ∨ a = 15 ∨
      a = 20 := by omega
  rcases areas with rfl | rfl | rfl | rfl | rfl | rfl | rfl | rfl | rfl | rfl | rfl | rfl | rfl | rfl | rfl
  · exact congrArg (fun e => { d.tab with device := e }) (DeviceEntry.codec.readRecord (e := d.tab.device) rfl rfl fits)
  · exact StreamEntry.codec.writeRecord_read 3 (⟨i, record⟩ : Fin 24) Tables.streams
      (fun t v => { t with streams := v }) (fun _ e => e)
      (fun _ => elim_toId _ _ _) (fun _ _ => elim_toId _ _ _) (fun _ => rfl) (fun _ => rfl) fits
  · exact number_codec.writeRecord_read 4 (⟨i, record⟩ : Fin 96) Tables.kinds (fun t v => { t with kinds := v }) (fun _ e => e)
      (fun _ => elim_toId _ _ _) (fun _ _ => elim_toId _ _ _) (fun _ => rfl) (fun _ => rfl) fits
  · exact GroupEntry.codec.writeRecord_read 5 (⟨i, record⟩ : Fin 24) Tables.groups
      (fun t v => { t with groups := v }) (fun _ e => e)
      (fun _ => elim_toId _ _ _) (fun _ _ => elim_toId _ _ _) (fun _ => rfl) (fun _ => rfl) fits
  · exact ElementEntry.codec.writeRecord_read 6 (⟨i, record⟩ : Fin 32) Tables.elements
      (fun t v => { t with elements := v }) (fun _ e => e)
      (fun _ => elim_toId _ _ _) (fun _ _ => elim_toId _ _ _) (fun _ => rfl) (fun _ => rfl) fits
  · exact curve_codec.writeRecord_read 7 (⟨i, record⟩ : Fin 8) Tables.curves (fun t v => { t with curves := v }) (fun _ e => e)
      (fun _ => elim_toId _ _ _) (fun _ _ => elim_toId _ _ _) (fun _ => rfl) (fun _ => rfl) fits
  · exact ZoneEntry.codec.writeRecord_read 8 (⟨i, record⟩ : Fin 4) Tables.zones (fun t v => { t with zones := v }) (fun _ e => e)
      (fun _ => elim_toId _ _ _) (fun _ _ => elim_toId _ _ _) (fun _ => rfl) (fun _ => rfl) fits
  · exact BreakerEntry.codec.writeRecord_read 9 (⟨i, record⟩ : Fin 24) Tables.breakers
      (fun t v => { t with breakers := v }) (fun old e => { e with lockout := old.lockout })
      (fun _ => elim_toId _ _ _) (fun _ _ => elim_toId _ _ _) (fun _ => rfl) (fun _ => rfl) fits
  · exact BusEntry.codec.writeRecord_read 10 (⟨i, record⟩ : Fin 6) Tables.buses
      (fun t v => { t with buses := v }) (fun old e => { e with block := old.block })
      (fun _ => elim_toId _ _ _) (fun _ _ => elim_toId _ _ _) (fun _ => rfl) (fun _ => rfl) fits
  · exact SourceEntry.codec.writeRecord_read 11 (⟨i, record⟩ : Fin 2) Tables.sources
      (fun t v => { t with sources := v }) (fun _ e => e)
      (fun _ => elim_toId _ _ _) (fun _ _ => elim_toId _ _ _) (fun _ => rfl) (fun _ => rfl) fits
  · exact number_codec.writeRecord_read 12 (⟨i, record⟩ : Fin 5) Tables.causes (fun t v => { t with causes := v }) (fun _ e => e)
      (fun _ => elim_toId _ _ _) (fun _ _ => elim_toId _ _ _) (fun _ => rfl) (fun _ => rfl) fits
  · exact SchemeEntry.codec.writeRecord_read 13 (⟨i, record⟩ : Fin 8) Tables.schemes
      (fun t v => { t with schemes := v }) (fun _ e => e)
      (fun _ => elim_toId _ _ _) (fun _ _ => elim_toId _ _ _) (fun _ => rfl) (fun _ => rfl) fits
  · rcases Nat.lt_succ_iff_lt_or_eq.mp (show i < 6 + 1 from record) with set | rfl
    · exact GenEntry.codec.writeRecord_read 14 (⟨i, set⟩ : Fin 6) Tables.gens (fun t v => { t with gens := v }) (fun _ e => e)
        (fun _ => elim_toId _ _ _) (fun _ _ => elim_toId _ _ _) (fun _ => rfl) (fun _ => rfl) fits
    · exact congrArg (fun e => { d.tab with par := e }) (ParEntry.codec.readRecord (e := d.tab.par) rfl rfl fits)
  · exact congrArg (fun e => { d.tab with capture := e }) (CaptureEntry.codec.readRecord (e := d.tab.capture) rfl rfl fits)
  · exact congrArg (fun e => { d.tab with lock := e }) (LockEntry.codec.readRecord (e := d.tab.lock) rfl rfl fits)

end Sys2Proof.Machine

/-!
The placing of samples and the closing of a slot (R25 to R38), with O19.
-/
namespace Sys2Proof.Machine

/-! ## The values of a placed sample -/

theorem clampSample_eq (v : Int) (q : Quality) : clampSample v q =
    { value := if v < -8388607 then -8388607 else if 8388607 < v then 8388607 else v
      quality := if (v < -8388607 ∨ 8388607 < v) ∧ q = .good then .questionable else q } := by
  unfold clampSample clamp Config.sampleLimit
  split
  next outside =>
    have outside : v < -8388607 ∨ 8388607 < v := outside.symm
    simp [outside]
  next inside =>
    have inside : ¬ (v < -8388607 ∨ 8388607 < v) := fun h => inside h.symm
    rw [if_neg (fun h => inside (.inl h)), if_neg (fun h => inside (.inr h)), if_neg (fun h : (_ ∨ _) ∧ _ => inside h.1)]

/-- The values of a slot after the pairs of a channel map have been taken in turn. -/
def placeValues (pairs : List (Nat × Nat)) (qs : List Quality) (vs : List Int) (values : Vector Sample 96) : Vector Sample 96 :=
  forEach pairs (fun p values => (toId 96 p.2).elim values (fun q => tset values q (placedSample p.1 qs vs))) values

section
variable {qs : List Quality} {vs : List Int}

theorem placeValues_cons (p : Nat × Nat) (pairs : List (Nat × Nat)) (values : Vector Sample 96) :
    placeValues (p :: pairs) qs vs values =
      placeValues pairs qs vs ((toId 96 p.2).elim values (fun q => tset values q (placedSample p.1 qs vs))) := rfl

theorem placeValues_unnamed {pairs : List (Nat × Nat)} {q : Fin 96} (unnamed : ∀ p ∈ pairs, p.2 ≠ q.val)
    (values : Vector Sample 96) : tget (placeValues pairs qs vs values) q = tget values q := by
  induction pairs generalizing values with
  | nil => rfl
  | cons p pairs ih =>
    rw [placeValues_cons, ih (fun x member => unnamed x (List.mem_cons_of_mem p member))]
    by_cases known : p.2 < 96
    · have other : q ≠ ⟨p.2, known⟩ := fun same => unnamed p (List.mem_cons_self ..) (congrArg Fin.val same).symm
      rw [show toId 96 p.2 = some ⟨p.2, known⟩ from dif_pos known]
      exact tget_tset_ne _ _ _ _ other
    · rw [toId_none (Nat.not_lt.mp known)]
      rfl

theorem placeValues_named {pairs : List (Nat × Nat)} {q : Fin 96} {ch : Nat} (once : (pairs.map Prod.snd).Nodup)
    (named : (ch, q.val) ∈ pairs) (values : Vector Sample 96) :
    tget (placeValues pairs qs vs values) q = placedSample ch qs vs := by
  induction pairs generalizing values with
  | nil => cases named
  | cons p pairs ih =>
    obtain ⟨new, once⟩ := List.nodup_cons.mp once
    rw [placeValues_cons]
    rcases List.mem_cons.mp named with rfl | later
    · rw [placeValues_unnamed (fun x member same => new (List.mem_map.mpr ⟨x, member, same⟩)), toId_val]
      exact tget_tset_same _ _ _
    · exact ih once later _

end

theorem placedSample_known {ch : Nat} {qs : List Quality} {vs : List Int} {v : Int} {q : Quality} (value : vs[ch]? = some v)
    (quality : qs[ch]? = some q) : placedSample ch qs vs = clampSample v q := by simp only [placedSample, value, quality]

theorem placedSample_unknown {ch : Nat} {qs : List Quality} {vs : List Int} (lacks : vs[ch]? = none ∨ qs[ch]? = none) :
    placedSample ch qs vs = {} := by
  unfold placedSample
  split
  next value quality => rcases lacks with none | none <;> simp [none] at value quality
  next => rfl

/-! ## Placing -/

/-- A stream's record as a sample of it is accepted (R28, R34). -/
def StreamRec.accept (y : StreamRec) (a : Nat) : StreamRec :=
  if y.state = .seeking ∨ y.state = .lost then { y with outOfWindow := 0, last := some a, state := .filling, fill := 0, missing := 0 }
  else { y with outOfWindow := 0, last := some a }

/-- The ring with a sample placed at a distance (R28). -/
def Ring.accept (r : Ring) (c a : Nat) (k : Fin 16) (slot : Slot) : Ring :=
  { r with slots := tset r.slots k slot
           newest := if r.newest.all (fun n => decide (r.distance c n < k.val)) then some a else r.newest }

/-- The device with a sample of a stream placed, before the ring is examined (R28). -/
def Dev.placed (d : Dev) (i : Fin 24) (ring : Ring) (a : Nat) : Dev :=
  ({ d with sau := { d.sau with ring := some ring, silence := some (after d.now Config.silenceMs) } } : Dev).modStream i
    (fun y => y.accept a)

theorem acceptSample_open {d : Dev} {i : Fin 24} {r : Ring} {a : Nat} {k : Fin 16}
    (dist : r.distance (Config.modulus d.f60) a = k.val) (qs : List Quality) (vs : List Int) : d.acceptSample i r a qs vs =
      Dev.examineRing examineLimit (d.placed i
        (r.accept (Config.modulus d.f60) a k ((tget r.slots k).place i (d.streamCfg i).pairs qs vs)) a) := by
  unfold Dev.acceptSample
  dsimp only
  rw [dist, toId_val]
  rfl

/-- A sample that falls into an open slot without its stream's delivery is accepted; an idle ring begins at it (R26). -/
theorem takeSample_accepted {d : Dev} {i : Fin 24} {count : Nat} {r : Ring} {k : Fin 16}
    (begins : d.sau.ring.getD { oldest := (count + (d.streamCfg i).delay) % Config.modulus d.f60 } = r)
    (dist : d.sampleDistance i r count = k.val) (fresh : (tget r.slots k).delivered.contains i = false)
    (qs : List Quality) (vs : List Int) :
    d.takeSample i count qs vs = d.acceptSample i r ((count + (d.streamCfg i).delay) % Config.modulus d.f60) qs vs := by
  cases running : d.sau.ring with
  | none =>
    rw [running] at begins
    simp only [Dev.takeSample, running, ← begins]
    rfl
  | some x =>
    rw [running] at begins
    obtain rfl : x = r := begins
    rw [takeSample_open running dist, if_neg (Bool.eq_false_iff.mp fresh)]

/-! ## Examining the ring -/

theorem examineRing_stays {d : Dev} {r : Ring} (ring : d.sau.ring = some r) (stays : d.mustClose r = false) (n : Nat) :
    Dev.examineRing (n + 1) d = d := by simp [Dev.examineRing, ring, stays]

theorem examineRing_closes {d : Dev} {r : Ring} (ring : d.sau.ring = some r) (closes : d.mustClose r = true) (n : Nat) :
    Dev.examineRing (n + 1) d = Dev.examineRing n (d.closeSlot r) := by simp [Dev.examineRing, ring, closes]

theorem StreamState.active_iff (s : StreamState) : s.active = true ↔ s = .filling ∨ s = .locked ∨ s = .holding := by
  cases s <;> simp [StreamState.active]

/-- The oldest slot closes when every stream that it waits for has delivered, or at wait depth (R30). -/
theorem mustClose_iff {d : Dev} {r : Ring} : d.mustClose r = true ↔
    ((∃ j, (d.stream j).state.active = true) ∧
      ∀ j, (d.stream j).state.active = true → (tget r.slots 0).delivered.contains j = true) ∨
      ∃ n, r.newest = some n ∧ 3 ≤ r.distance (Config.modulus d.f60) n := by
  have first : r.slots[0] = tget r.slots 0 := rfl
  have complete : (d.anyActive &&
      (List.finRange 24).all (fun i => !(d.stream i).state.active || r.slots[0].delivered.contains i)) = true ↔
      (∃ j, (d.stream j).state.active = true) ∧
        ∀ j, (d.stream j).state.active = true → (tget r.slots 0).delivered.contains j = true := by
    rw [Bool.and_eq_true, anyActive_iff, List.all_eq_true, first]
    refine and_congr_right fun _ => forall_congr' fun j => ?_
    cases (d.stream j).state.active <;> simp
  have deep : r.newest.any (fun n => decide (3 ≤ r.distance (Config.modulus d.f60) n)) = true ↔
      ∃ n, r.newest = some n ∧ 3 ≤ r.distance (Config.modulus d.f60) n := by
    simp [Option.any_eq_true]
  unfold Dev.mustClose
  dsimp only
  rw [Bool.or_eq_true, complete, deep]

/-- A slot that a waiting stream has not delivered stays open before wait depth (R30). -/
theorem mustClose_waits {d : Dev} {r : Ring} {j : Fin 24} (active : (d.stream j).state.active = true)
    (missing : (tget r.slots 0).delivered.contains j = false)
    (near : ∀ n, r.newest = some n → r.distance (Config.modulus d.f60) n < 3) : d.mustClose r = false := by
  rw [Bool.eq_false_iff, ne_eq, mustClose_iff]
  rintro (⟨-, complete⟩ | ⟨n, newest, deep⟩)
  · exact Bool.eq_false_iff.mp missing (complete j active)
  · exact Nat.not_lt.mpr deep (near n newest)

/-- Examined again after a slot has closed, the next one stays open. -/
theorem examineRing_once {d : Dev} {r r' : Ring} (ring : d.sau.ring = some r) (closes : d.mustClose r = true)
    (next : (d.closeSlot r).sau.ring = some r') (stays : (d.closeSlot r).mustClose r' = false) (n : Nat) :
    Dev.examineRing (n + 2) d = d.closeSlot r :=
  (examineRing_closes ring closes (n + 1)).trans (examineRing_stays next stays n)

/-! ## A stream's transition -/

/-- A stream's record after a slot's close, with or without its delivery (R34). -/
def StreamRec.closed (r : StreamRec) (delivered : Bool) : StreamRec :=
  match r.state, delivered with
  | .filling, true => { r with fill := r.fill + 1, state := if 80 ≤ r.fill + 1 then .locked else .filling }
  | .filling, false => { r with fill := 0 }
  | .locked, false => { r with state := .holding, missing := 1 }
  | .holding, true => { r with state := .locked, missing := 0 }
  | .holding, false => if 4 ≤ r.missing + 1 then r.lose else { r with missing := r.missing + 1 }
  | _, _ => r

theorem Dev.modStream_congr {d : Dev} {i : Fin 24} {f g : StreamRec → StreamRec} (same : f (d.stream i) = g (d.stream i)) :
    d.modStream i f = d.modStream i g :=
  congrArg (fun x => ({ d with sau := { d.sau with streams := tset d.sau.streams i x } } : Dev)) same

theorem Dev.modStream_twice (d : Dev) (i : Fin 24) (f g : StreamRec → StreamRec) :
    (d.modStream i f).modStream i g = d.modStream i (fun x => g (f x)) := by
  simp only [Dev.modStream, tmod, tget_tset_same]
  simp only [tset, Vector.set_set]

theorem Dev.modStream_self {d : Dev} {i : Fin 24} {f : StreamRec → StreamRec} (same : f (d.stream i) = d.stream i) :
    d.modStream i f = d := by
  rw [Dev.modStream_congr (g := id) same]
  simp [Dev.modStream, tmod]

/-- What a transition records and notes is no matter of the alignment. -/
theorem aligned_closeStream (d : Dev) (i : Fin 24) (v : Bool) :
    (d.closeStream i v).aligned = (d.modStream i (·.closed v)).aligned := by
  have turn {f : StreamRec → StreamRec} (same : f (d.stream i) = (d.stream i).closed v) :
      (d.modStream i f).aligned = (d.modStream i (·.closed v)).aligned := congrArg Dev.aligned (Dev.modStream_congr same)
  unfold Dev.closeStream
  dsimp only
  split
  next filling =>
    split
    next full =>
      refine (aligned_queueNotice _ _ _ _).trans ?_
      rw [Dev.modStream_twice]
      exact turn (by simp [StreamRec.closed, filling, full])
    next few => exact turn (by simp [StreamRec.closed, filling, few])
  next filling => exact turn (by simp [StreamRec.closed, filling])
  next locked => exact turn (by simp [StreamRec.closed, locked])
  next holding => exact turn (by simp [StreamRec.closed, holding])
  next holding =>
    split
    next full => exact (aligned_loseStream d i).trans (turn (by simp [StreamRec.closed, holding, full]))
    next few => exact turn (by simp [StreamRec.closed, holding, few])
  next =>
    rw [Dev.modStream_self]
    unfold StreamRec.closed
    split <;> simp_all

/-- A stream that is FILLING or LOCKED stays active through a close. -/
theorem StreamRec.closed_active {y : StreamRec} (state : y.state = .filling ∨ y.state = .locked) (v : Bool) :
    (y.closed v).state.active = true := by
  unfold StreamRec.closed
  rw [StreamState.active_iff]
  rcases state with state | state <;> cases v <;> simp only [state]
  · exact .inl trivial
  · split <;> simp
  · exact .inr (.inr trivial)
  · exact .inr (.inl trivial)

theorem StreamRec.closed_delivered (y : StreamRec) :
    (y.state = .filling →
      (y.closed true).fill = y.fill + 1 ∧ (y.closed true).state = if 80 ≤ y.fill + 1 then .locked else .filling) ∧
    (y.state = .locked ∨ y.state = .holding → (y.closed true).state = .locked) := by
  unfold StreamRec.closed
  refine ⟨fun filling => ?_, ?_⟩
  · simp only [filling, and_self]
  · rintro (locked | holding)
    · simp only [locked]
    · simp only [holding]

theorem StreamRec.closed_missing (y : StreamRec) :
    (y.state = .filling → y.closed false = { y with fill := 0 }) ∧
    (y.state = .locked → y.closed false = { y with state := .holding, missing := 1 }) ∧
    (y.state = .holding → y.missing < 3 → y.closed false = { y with missing := y.missing + 1 }) ∧
    (y.state = .holding → 3 ≤ y.missing → y.closed false = { y with state := .lost, fill := 0, missing := 0 }) := by
  unfold StreamRec.closed
  refine ⟨fun filling => ?_, fun locked => ?_, fun holding few => ?_, fun holding most => ?_⟩
  · simp only [filling]
  · simp only [locked]
  · simp only [holding]
    exact if_neg (show ¬ 4 ≤ y.missing + 1 by omega)
  · simp only [holding]
    exact if_pos (show 4 ≤ y.missing + 1 by omega)

theorem closeStreams_stream (d : Dev) (slot : Slot) (j : Fin 24) :
    (d.closeStreams slot).stream j = (d.stream j).closed (slot.delivered.contains j) := by
  have turns (xs : List (Fin 24)) (once : xs.Nodup) (d : Dev) :
      (forEach xs (fun i d => d.closeStream i (slot.delivered.contains i)) d).stream j =
        if j ∈ xs then (d.stream j).closed (slot.delivered.contains j) else d.stream j := by
    induction xs generalizing d with
    | nil => rfl
    | cons x xs ih =>
      obtain ⟨new, once⟩ := List.nodup_cons.mp once
      rw [forEach_cons, ih once, stream_of_aligned (aligned_closeStream d x _), Dev.modStream_stream]
      by_cases here : j = x
      · subst here
        rw [if_neg new, if_pos rfl, if_pos (List.mem_cons_self ..)]
      · rw [if_neg here]
        simp only [List.mem_cons, here, false_or]
  exact (turns _ (List.nodup_finRange 24) d).trans (if_pos (List.mem_finRange j))

/-- The alignment but for the streams' records, which is all of it that the transitions change. -/
def Dev.unstreamed (d : Dev) : Alignment :=
  { d.aligned with sau := { d.sau with streams := Vector.replicate 24 {} } }

theorem unstreamed_of_aligned {d e : Dev} (h : d.aligned = e.aligned) : d.unstreamed = e.unstreamed :=
  congrArg (fun v : Alignment => { v with sau := { v.sau with streams := Vector.replicate 24 {} } }) h

theorem window_of_unstreamed {d e : Dev} (h : d.unstreamed = e.unstreamed) (q : Fin 96) :
    (d.quantity q).window = (e.quantity q).window :=
  congrFun (congrArg Alignment.windows h) q

theorem unstreamed_closeStreams (d : Dev) (slot : Slot) : (d.closeStreams slot).unstreamed = d.unstreamed := by
  unfold Dev.closeStreams
  exact forEach_keeps (fun x : Dev => x.unstreamed = d.unstreamed) _ _ _
    (fun i x h => (unstreamed_of_aligned (aligned_closeStream x i _)).trans h) rfl

theorem stored_closeStream (d : Dev) (i : Fin 24) (v : Bool) : (d.closeStream i v).stored = d.stored := by
  have S := stored_evaluates d.stored
  unfold Dev.closeStream Dev.lockStream Dev.loseStream Dev.streamNotice
  dsimp only
  split
  · exact keeps_ite (P := fun x : Dev => x.stored = d.stored) (S.queueNotice _ _ _ rfl) rfl
  · rfl
  · rfl
  · rfl
  · exact keeps_ite (P := fun x : Dev => x.stored = d.stored) (S.queueNotice _ _ _ (S.recordError _ _ rfl)) rfl
  · rfl

theorem stored_closeStreams (d : Dev) (slot : Slot) : (d.closeStreams slot).stored = d.stored := by
  unfold Dev.closeStreams
  exact forEach_keeps (fun x : Dev => x.stored = d.stored) _ _ _ (fun i x h => (stored_closeStream x i _).trans h) rfl

theorem streamOf_of_stored {d e : Dev} (h : d.stored = e.stored) (q : Fin 96) : d.tab.streamOf q = e.tab.streamOf q :=
  congrArg (fun v : Tables × Count32 × Mode => v.1.streamOf q) h

/-! ## Final values and windows -/

theorem heldSample_eq (x : Sample) :
    heldSample x = { value := x.value, quality := if x.quality = .invalid then .invalid else .held } := by
  unfold heldSample
  split
  next invalid => rw [← invalid]
  next => rfl

theorem pushWindow_earlier (w : Vector Sample 80) (x : Sample) (n : Fin 79) :
    tget (pushWindow w x) ⟨n.val, by omega⟩ = tget w ⟨n.val + 1, by omega⟩ :=
  (tget_ofFn _ _).trans (dif_pos (show n.val + 1 < 80 by omega))

theorem pushWindow_last (w : Vector Sample 80) (x : Sample) : tget (pushWindow w x) 79 = x := tget_ofFn _ _

section
variable {d : Dev} {slot : Slot} {q : Fin 96}

theorem finalValue_unmapped (none : d.tab.streamOf q = none) : d.finalValue slot q = {} := by
  simp only [Dev.finalValue, none]

theorem finalValue_mapped {i : Fin 24} (mapped : d.tab.streamOf q = some i) : d.finalValue slot q =
    if slot.delivered.contains i then tget slot.values q
    else if (d.stream i).state = .holding then heldSample (tget (d.quantity q).window 0) else {} := by
  simp only [Dev.finalValue, mapped]
  rfl

end

/-! ## A slot that closes -/

theorem advance_earlier (r : Ring) (c : Nat) (n : Fin 15) :
    tget (r.advance c).slots ⟨n.val, by omega⟩ = tget r.slots ⟨n.val + 1, by omega⟩ :=
  (tget_ofFn _ _).trans (dif_pos (show n.val + 1 < 16 by omega))

theorem advance_last (r : Ring) (c : Nat) : tget (r.advance c).slots 15 = {} := tget_ofFn _ _

theorem advance_newest {r : Ring} {c n : Nat} : (r.advance c).newest = some n → r.newest = some n ∧ n ≠ r.oldest := by
  unfold Ring.advance
  dsimp only
  split
  · exact nofun
  next other =>
    intro newest
    exact ⟨newest, fun same => other (same ▸ newest)⟩

/-- A closed slot's final values taken, and the ring moved on; nothing is evaluated yet. -/
def Dev.takeFinal (e : Dev) (values : Vector Sample 96) (r : Ring) : Dev :=
  let f := Dev.captureSlot { e with meas := e.meas.takeSlot values } values
  { f with sau := { f.sau with ring := some (r.advance (Config.modulus f.f60)) } }

/-- The device with the ring's oldest slot taken, after the transitions. -/
def Dev.slotTaken (d : Dev) (r : Ring) : Dev :=
  let e := d.closeStreams r.slots[0]
  e.takeFinal (Vector.ofFn (e.finalValue r.slots[0])) r

/-- What a close evaluates: a phasor instant, or the withdrawal of quantities. -/
def Dev.evaluated (f : Dev) (instant : Prop) [Decidable instant] (left : List (Fin 96)) : Dev :=
  if instant then f.phasorInstant else f.invalidate left

/-- The quantities of the streams that leave service at a close (R37). -/
def Dev.closeLeaves (d : Dev) (r : Ring) : List (Fin 96) :=
  (leftService d (d.closeStreams r.slots[0])).flatMap (fun i => ((d.slotTaken r).streamCfg i).quantities)

theorem closeSlot_eq (d : Dev) (r : Ring) :
    d.closeSlot r = ((d.slotTaken r).evaluated (r.oldest % 20 = 19) (d.closeLeaves r)).idleIfEmpty := by
  unfold Dev.closeSlot Dev.evaluated Dev.closeLeaves Dev.slotTaken Dev.takeFinal
  dsimp only

theorem takeFinal_window (e : Dev) (values : Vector Sample 96) (r : Ring) (q : Fin 96) :
    ((e.takeFinal values r).quantity q).window = pushWindow (e.quantity q).window (tget values q) := by
  have taken : (e.takeFinal values r).meas = e.meas.takeSlot values := rfl
  unfold Dev.quantity
  rw [taken]
  unfold Meas.takeSlot
  dsimp only
  rw [tget_ofFn]

theorem takeFinal_f60 (e : Dev) (values : Vector Sample 96) (r : Ring) : (e.takeFinal values r).f60 = e.f60 := by
  simp only [Dev.takeFinal, Dev.captureSlot]

theorem takeFinal_sau (e : Dev) (values : Vector Sample 96) (r : Ring) :
    (e.takeFinal values r).sau = { e.sau with ring := some (r.advance (Config.modulus e.f60)) } := by
  simp only [Dev.takeFinal, Dev.captureSlot]

/-- Of the alignment an evaluation changes the count of instants alone (R38). -/
theorem aligned_evaluated (f : Dev) (instant : Prop) [Decidable instant] (left : List (Fin 96)) :
    (f.evaluated instant left).aligned =
      { f.aligned with sau := { f.sau with inst := if instant then f.sau.inst + 1 else f.sau.inst } } := by
  unfold Dev.evaluated
  split
  · exact (aligned_instants _).phasorInstant rfl
  · exact aligned_invalidate _ _

/-- The alignment after the close of a ring's oldest slot. -/
def Dev.alignedClosed (d : Dev) (r : Ring) : Alignment :=
  { f60 := d.f60
    sau := { (d.closeStreams (tget r.slots 0)).sau with
      ring := some (r.advance (Config.modulus d.f60)), inst := if r.oldest % 20 = 19 then d.sau.inst + 1 else d.sau.inst }
    windows := fun q => pushWindow (d.quantity q).window ((d.closeStreams (tget r.slots 0)).finalValue (tget r.slots 0) q) }

theorem aligned_evaluated_slotTaken (d : Dev) (r : Ring) :
    ((d.slotTaken r).evaluated (r.oldest % 20 = 19) (d.closeLeaves r)).aligned = d.alignedClosed r := by
  have first : r.slots[0] = tget r.slots 0 := rfl
  have same := unstreamed_closeStreams d (tget r.slots 0)
  rw [aligned_evaluated, Dev.slotTaken, first, Dev.alignedClosed]
  dsimp only
  generalize d.closeStreams (tget r.slots 0) = e at same
  have constants : e.f60 = d.f60 := congrArg Alignment.f60 same
  have inst : e.sau.inst = d.sau.inst := congrArg (fun v : Alignment => v.sau.inst) same
  have windows := window_of_unstreamed same
  simp only [Dev.aligned, takeFinal_f60, takeFinal_sau, takeFinal_window, tget_ofFn, constants, inst, windows]

section
variable {d e : Dev} {r : Ring}

theorem stream_of_alignedClosed (h : e.aligned = d.alignedClosed r) (j : Fin 24) :
    e.stream j = (d.stream j).closed ((tget r.slots 0).delivered.contains j) := by
  have sau : e.sau = (d.alignedClosed r).sau := congrArg Alignment.sau h
  have transitions := closeStreams_stream d (tget r.slots 0) j
  rw [Dev.stream] at transitions ⊢
  rw [sau, ← transitions]
  simp only [Dev.alignedClosed]

theorem ring_of_alignedClosed (h : e.aligned = d.alignedClosed r) : e.sau.ring = some (r.advance (Config.modulus d.f60)) :=
  congrArg (fun v : Alignment => v.sau.ring) h

theorem inst_of_alignedClosed (h : e.aligned = d.alignedClosed r) :
    e.sau.inst = if r.oldest % 20 = 19 then d.sau.inst + 1 else d.sau.inst :=
  congrArg (fun v : Alignment => v.sau.inst) h

theorem window_of_alignedClosed (h : e.aligned = d.alignedClosed r) (q : Fin 96) : (e.quantity q).window =
    pushWindow (d.quantity q).window ((d.closeStreams (tget r.slots 0)).finalValue (tget r.slots 0) q) :=
  congrFun (congrArg Alignment.windows h) q

/-- A ring with a stream that stays active goes on. -/
theorem aligned_closeSlot {j : Fin 24} (active : ((d.stream j).closed ((tget r.slots 0).delivered.contains j)).state.active = true) :
    (d.closeSlot r).aligned = d.alignedClosed r := by
  have closed := aligned_evaluated_slotTaken d r
  have stays := (congrArg (fun y : StreamRec => y.state.active) (stream_of_alignedClosed closed j)).trans active
  rw [closeSlot_eq, idleIfEmpty_active (anyActive_iff.mpr ⟨j, stays⟩), closed]

/-- A slot closes alone when a stream that stays active has not delivered the next one, which is not at wait depth. -/
theorem examineRing_one {j : Fin 24} (ring : d.sau.ring = some r) (closes : d.mustClose r = true)
    (state : (d.stream j).state = .filling ∨ (d.stream j).state = .locked)
    (missing : (tget r.slots 1).delivered.contains j = false)
    (near : ∀ n, r.newest = some n → n ≠ r.oldest →
      (r.advance (Config.modulus d.f60)).distance (Config.modulus d.f60) n < 3) (n : Nat) :
    Dev.examineRing (n + 2) d = d.closeSlot r ∧ (d.closeSlot r).aligned = d.alignedClosed r := by
  have active : ((d.stream j).closed ((tget r.slots 0).delivered.contains j)).state.active = true :=
    StreamRec.closed_active state _
  have closed := aligned_closeSlot active
  have constants : (d.closeSlot r).f60 = d.f60 := congrArg Alignment.f60 closed
  refine ⟨examineRing_once ring closes (ring_of_alignedClosed closed) (mustClose_waits (j := j) ?_ ?_ ?_) n, closed⟩
  · rw [stream_of_alignedClosed closed]
    exact active
  · exact (congrArg (fun x : Slot => x.delivered.contains j) (advance_earlier r _ 0)).trans missing
  · rw [constants]
    intro n newest
    obtain ⟨newest, other⟩ := advance_newest newest
    exact near n newest other

end

/-! ## O19 -/

/-- The windows after a close: each takes its quantity's final value (R31, R35). -/
theorem window_closed {d e : Dev} {r : Ring} (h : e.aligned = d.alignedClosed r) (q : Fin 96) :
    let w := (d.quantity q).window
    (∀ n : Fin 79, tget (e.quantity q).window ⟨n.val, by omega⟩ = tget w ⟨n.val + 1, by omega⟩) ∧
    (d.tab.streamOf q = none → tget (e.quantity q).window 79 = {}) ∧
    (∀ j, d.tab.streamOf q = some j →
      ((tget r.slots 0).delivered.contains j = true → tget (e.quantity q).window 79 = tget (tget r.slots 0).values q) ∧
      ((tget r.slots 0).delivered.contains j = false → (e.stream j).state = .holding → tget (e.quantity q).window 79
        = { value := (tget w 0).value, quality := if (tget w 0).quality = .invalid then .invalid else .held }) ∧
      ((tget r.slots 0).delivered.contains j = false → (e.stream j).state ≠ .holding → tget (e.quantity q).window 79 = {})) := by
  intro w
  set c := d.closeStreams (tget r.slots 0)
  have mapped : c.tab.streamOf q = d.tab.streamOf q := streamOf_of_stored (stored_closeStreams d _) q
  have kept : (c.quantity q).window = w := window_of_unstreamed (unstreamed_closeStreams d _) q
  have last : tget (e.quantity q).window 79 = c.finalValue (tget r.slots 0) q := by rw [window_of_alignedClosed h, pushWindow_last]
  have state (j : Fin 24) : c.stream j = e.stream j := (closeStreams_stream d _ j).trans (stream_of_alignedClosed h j).symm
  refine ⟨fun n => ?_, fun none => ?_, fun j stream => ?_⟩
  · rw [window_of_alignedClosed h]
    exact pushWindow_earlier _ _ n
  · rw [last, finalValue_unmapped (mapped.trans none)]
  · rw [last, finalValue_mapped (mapped.trans stream), kept, state j]
    refine ⟨fun delivered => if_pos delivered, fun missing holding => ?_, fun missing other => ?_⟩
    · rw [missing, if_neg Bool.false_ne_true, if_pos holding, heldSample_eq]
    · rw [missing, if_neg Bool.false_ne_true, if_neg other]

/-- Settles O19: a placed sample's values pair by pair, and the ring's examination by whether its oldest slot must close. -/
theorem placedSampleValues : Obligations.PlacedSampleValues := by
  refine ⟨fun slot i pairs qs vs q once => ⟨rfl, fun unnamed => placeValues_unnamed unnamed _, fun ch v ql named value quality => ?_,
    fun ch named lacks => ?_⟩, ?_⟩
  · rw [← clampSample_eq, ← placedSample_known value quality]
    exact placeValues_named once named _
  · rw [← placedSample_unknown lacks]
    exact placeValues_named once named _
  · intro s f m i count qs vs k run carries kind stream own quiet c a r dist fresh ring d x waits delivered ahead
    have slot : r.accept (Config.modulus d.f60) a k ((tget r.slots k).place i (d.streamCfg i).pairs qs vs) = ring := rfl
    have placing : d.placed i ring a = x := rfl
    have begins : d.sau.ring.getD { oldest := (count + (d.streamCfg i).delay) % Config.modulus d.f60 } = r := rfl
    have away : d.sampleDistance i r count = k.val := dist
    have accepted : d.takeSample i count qs vs = d.acceptSample i r a qs vs := takeSample_accepted begins away fresh qs vs
    have ahead_k : r.distance (Config.modulus d.f60) a = k.val := dist
    have placed := acceptSample_open ahead_k qs vs (i := i)
    rw [slot, placing] at placed
    have ran : exec (.frameReception .p1 f m) s = .next (s.withDev (Dev.examineRing examineLimit x).flush) := by
      rw [exec_sample run carries kind stream m, decide_eq_false own, ← placed, ← accepted]
      rfl
    have running : x.sau.ring = some ring := rfl
    have waits_iff (j : Fin 24) : (x.stream j).state.active = true ↔ waits j := StreamState.active_iff _
    refine ⟨?_, fun closes near next => ?_⟩
    · rintro ⟨j, waiting, missing⟩ near
      have stays : Dev.examineRing examineLimit x = x :=
        examineRing_stays running (mustClose_waits ((waits_iff j).mpr waiting) missing near) 19
      rw [ran, stays, Dev.flush_of_no_work x (by exact quiet)]
    · obtain ⟨j, state, missing⟩ := next
      have due : x.mustClose ring = true := by
        rw [mustClose_iff]
        simp only [waits_iff]
        exact closes
      obtain ⟨one, closed⟩ := examineRing_one running due state missing near 18
      have one : Dev.examineRing examineLimit x = x.closeSlot ring := one
      rw [one] at ran
      have after := (aligned_flush (x.closeSlot ring)).trans closed
      have moved := ring_of_alignedClosed after
      have counted := inst_of_alignedClosed after
      have windows := window_closed after
      refine ⟨_, ran, rfl, ⟨_, moved, rfl, advance_last _ _, advance_earlier _ _, rfl⟩, counted, fun j => ?_, windows⟩
      have transition := stream_of_alignedClosed after j
      refine ⟨fun delivers => ?_, fun misses => ?_⟩
      · rw [show (tget ring.slots 0).delivered.contains j = true from delivers] at transition
        have moves := StreamRec.closed_delivered (x.stream j)
        rw [← transition] at moves
        exact moves
      · rw [show (tget ring.slots 0).delivered.contains j = false from misses] at transition
        have moves := StreamRec.closed_missing (x.stream j)
        rw [← transition] at moves
        exact moves

end Sys2Proof.Machine

/-!
The results of a phasor instant: the sums over a window, the qualities of windows and of derived values, the record of a
quantity and the power of a group (R44, R46 to R48, R51, R52), with O56.
-/
namespace Sys2Proof.Machine

/-! ## Windows -/

section
variable {α : Type} {n : Nat}

theorem toList_eq_map_tget (v : Vector α n) : v.toList = (List.finRange n).map (tget v) := by
  rw [← List.ofFn_eq_map, ← Vector.toList_ofFn]
  exact congrArg Vector.toList (vector_ext_tget fun i => (tget_ofFn (tget v) i).symm)

theorem any_toList_iff {v : Vector α n} {p : α → Bool} : v.toList.any p = true ↔ ∃ i, p (tget v i) = true := by
  simp [toList_eq_map_tget]

end

/-- The sum walks both lists; past the end of the coefficients each product is with 0. -/
theorem dotSum_map_finRange {n : Nat} (f : Fin n → Int) (cs : List Int) :
    dotSum ((List.finRange n).map f) cs = ((List.finRange n).map (fun i => f i * cs.getD i.val 0)).sum := by
  induction n generalizing cs with
  | zero => simp [dotSum]
  | succ n ih =>
    cases cs with
    | nil => simp [dotSum]
    | cons c cs =>
      have rest := ih (fun i => f i.succ) cs
      simpa [List.finRange_succ, dotSum, Function.comp_def] using rest

theorem dotSum_window (w : Vector Sample 80) (cs : List Int) :
    dotSum (w.toList.map Sample.value) cs = ((List.finRange 80).map (fun i => (tget w i).value * cs.getD i.val 0)).sum := by
  rw [toList_eq_map_tget, List.map_map]
  exact dotSum_map_finRange (fun i => (tget w i).value) cs

section
variable {w : Vector Sample 80}

theorem windowQuality_invalid (bad : ∃ i, (tget w i).quality = .invalid) : windowQuality w = .invalid :=
  if_pos (any_toList_iff.mpr (by simpa using bad))

theorem windowQuality_no_invalid (sound : ∀ i, (tget w i).quality ≠ .invalid) : windowQuality w =
    if w.toList.any (fun x => decide (x.quality = .held ∨ x.quality = .questionable)) then .held else .good :=
  if_neg fun h => by
    obtain ⟨i, bad⟩ := any_toList_iff.mp h
    exact sound i (of_decide_eq_true bad)

theorem windowQuality_held (sound : ∀ i, (tget w i).quality ≠ .invalid)
    (held : ∃ i, (tget w i).quality = .held ∨ (tget w i).quality = .questionable) : windowQuality w = .held := by
  rw [windowQuality_no_invalid sound]
  exact if_pos (any_toList_iff.mpr (by simpa using held))

theorem windowQuality_good (good : ∀ i, (tget w i).quality = .good) : windowQuality w = .good := by
  rw [windowQuality_no_invalid (fun i => by simp [good i])]
  refine if_neg fun h => ?_
  obtain ⟨i, held⟩ := any_toList_iff.mp h
  simp [good i] at held

theorem windowQuality_ne_questionable : windowQuality w ≠ .questionable := by
  unfold windowQuality
  split
  · exact Quality.noConfusion
  · split <;> exact Quality.noConfusion

end

/-! ## Derived values -/

theorem cast_m2 (p : Phasor) : (p.m2 : Int) = p.re * p.re + p.im * p.im :=
  Int.toNat_of_nonneg (add_nonneg (mul_self_nonneg _) (mul_self_nonneg _))

/-- Halving with the floor before the root is taken loses nothing: the square of a whole number is one. -/
theorem rmsOf_floor {m : Nat} (h : m < 2 ^ 64) :
    2 * (rmsOf m * rmsOf m) ≤ m ∧ m < 2 * ((rmsOf m + 1) * (rmsOf m + 1)) := by
  obtain ⟨low, high⟩ := isqrt_floor (n := m / 2) (by omega)
  rw [← rmsOf] at low high
  omega

theorem rmsOf_zero : rmsOf 0 = 0 := by
  have root := (rmsOf_floor (m := 0) (by decide)).1
  simpa using root

section
variable {qs : List Quality}

theorem derivedQuality_invalid (bad : .invalid ∈ qs) : derivedQuality qs = .invalid :=
  if_pos (List.any_eq_true.mpr ⟨_, bad, rfl⟩)

theorem derivedQuality_valid (sound : ∀ q ∈ qs, q.valid = true) :
    derivedQuality qs = if qs.any (fun q => decide (q = .held)) then .held else .good :=
  if_neg (by simpa using sound)

theorem derivedQuality_held (sound : ∀ q ∈ qs, q.valid = true) (held : .held ∈ qs) : derivedQuality qs = .held := by
  rw [derivedQuality_valid sound]
  exact if_pos (List.any_eq_true.mpr ⟨_, held, rfl⟩)

theorem derivedQuality_good (good : ∀ q ∈ qs, q = .good) : derivedQuality qs = .good := by
  rw [derivedQuality_valid (fun q used => by rw [good q used]; rfl)]
  refine if_neg fun h => ?_
  obtain ⟨q, used, held⟩ := List.any_eq_true.mp h
  simp [good q used] at held

end

theorem Quality.valid_of_ne {q : Quality} (invalid : q ≠ .invalid) (questionable : q ≠ .questionable) : q.valid = true := by
  cases q with
  | good | held => rfl
  | invalid => exact absurd rfl invalid
  | questionable => exact absurd rfl questionable

/-! ## The record of a quantity -/

section
variable (r : QuantityRec) (computed : Bool) (inst : Count32)

@[simp] theorem QuantityRec.atInstant_window : (r.atInstant computed inst).window = r.window := rfl
@[simp] theorem QuantityRec.atInstant_lastAt : (r.atInstant computed inst).lastAt = inst := rfl

theorem QuantityRec.atInstant_m2 : (r.atInstant computed inst).m2 = (r.atInstant computed inst).phasor.m2 := by
  simp only [QuantityRec.atInstant]

theorem QuantityRec.atInstant_rms : (r.atInstant computed inst).rms = rmsOf (r.atInstant computed inst).m2 := by
  simp only [QuantityRec.atInstant]

@[simp] theorem QuantityRec.atInstant_phasor_in_service :
    (r.atInstant true inst).phasor = windowPhasor (r.window.toList.map Sample.value) := rfl
@[simp] theorem QuantityRec.atInstant_quality_in_service : (r.atInstant true inst).quality = windowQuality r.window := rfl

theorem QuantityRec.atInstant_out_of_service : (r.atInstant false inst).phasor = {} ∧ (r.atInstant false inst).rms = 0 ∧
    (r.atInstant false inst).quality = .invalid := by
  have phasor : (r.atInstant false inst).phasor = {} := rfl
  refine ⟨phasor, ?_, rfl⟩
  rw [atInstant_rms, atInstant_m2, phasor]
  exact rmsOf_zero

theorem QuantityRec.atInstant_quality_ne_questionable : (r.atInstant computed inst).quality ≠ .questionable := by
  cases computed with
  | false => exact Quality.noConfusion
  | true => exact windowQuality_ne_questionable

end

/-- The device between the two halves of an instant: every quantity has its results, no group yet (R59). -/
def Dev.measureQuantities (d : Dev) : Dev :=
  { d with meas := { d.meas with
      quantities := Vector.ofFn (fun q => (d.quantity q).atInstant (d.computed q) d.sau.inst) } }

theorem measureQuantities_groupCfg (d : Dev) (g : Fin 24) : d.measureQuantities.groupCfg g = d.groupCfg g := by
  simp only [Dev.groupCfg, Dev.measureQuantities]

theorem measure_group (d : Dev) (g : Fin 24) : d.measure.group g = d.measureQuantities.groupAtInstant g := tget_ofFn _ g

theorem measure_quantities (d : Dev) : d.measure.meas.quantities = d.measureQuantities.meas.quantities := rfl

theorem measure_qualities (d : Dev) (ids : List (Fin 96)) : d.measure.qualities ids = d.measureQuantities.qualities ids := by
  unfold Dev.qualities Dev.quantity
  rw [measure_quantities]

theorem measure_quantity (d : Dev) (q : Fin 96) : d.measure.quantity q = (d.quantity q).atInstant (d.computed q) d.sau.inst :=
  tget_ofFn _ _

theorem measure_quality_ne_questionable (d : Dev) (q : Fin 96) : (d.measure.quantity q).quality ≠ .questionable := by
  rw [measure_quantity]
  exact QuantityRec.atInstant_quality_ne_questionable _ _ _

/-! ## The power of a group -/

@[simp] theorem GroupRec.takeOutcome_powerQ (r : GroupRec) (o : Option (Int × Quality)) : (r.takeOutcome o).powerQ = r.powerQ := by
  simp only [GroupRec.takeOutcome, apply_ite GroupRec.powerQ, ite_self]

section
variable {d : Dev} {e : GroupEntry} {va vb vc ia ib ic : Fin 96}

@[simp] theorem frequency_powerQ (r : GroupRec) : (d.frequency e r).powerQ = r.powerQ := by
  unfold Dev.frequency
  split
  · rfl
  · exact GroupRec.takeOutcome_powerQ _ _

theorem power_powerQ (voltages : e.voltages = some (va, vb, vc)) (currents : e.currents = some (ia, ib, ic)) (r : GroupRec) :
    (d.power e r).powerQ = derivedQuality (d.qualities [va, vb, vc, ia, ib, ic]) := by
  simp only [Dev.power, voltages, currents]

theorem used_of_voltages (voltages : e.voltages = some (va, vb, vc)) : e.unused = false := by
  refine decide_eq_false fun absent => ?_
  have roleless : ({} : GroupEntry).voltages = none := by decide
  simp [absent, roleless] at voltages

theorem groupAtInstant_powerQ {g : Fin 24} (voltages : (d.groupCfg g).voltages = some (va, vb, vc))
    (currents : (d.groupCfg g).currents = some (ia, ib, ic)) :
    (d.groupAtInstant g).powerQ = derivedQuality (d.qualities [va, vb, vc, ia, ib, ic]) := by
  simp [Dev.groupAtInstant, used_of_voltages voltages, power_powerQ voltages currents]

/-- A group reads the quantities as the same instant has left them (R59). -/
theorem measure_powerQ {g : Fin 24} (voltages : (d.groupCfg g).voltages = some (va, vb, vc))
    (currents : (d.groupCfg g).currents = some (ia, ib, ic)) :
    (d.measure.group g).powerQ = derivedQuality (d.measure.qualities [va, vb, vc, ia, ib, ic]) := by
  rw [← measureQuantities_groupCfg] at voltages currents
  rw [measure_group, measure_qualities]
  exact groupAtInstant_powerQ voltages currents

end

/-- After an instant a quality that is not INVALID is valid: none is QUESTIONABLE. -/
theorem valid_of_measured {d : Dev} {ids : List (Fin 96)} (sound : .invalid ∉ d.measure.qualities ids) :
    ∀ x ∈ d.measure.qualities ids, x.valid = true := by
  intro x used
  have invalid : x ≠ .invalid := fun h => sound (h ▸ used)
  obtain ⟨q, -, rfl⟩ := List.mem_map.mp used
  exact Quality.valid_of_ne invalid (measure_quality_ne_questionable d q)

/-- Settles O56: the record of a quantity by whether its stream is in service, and a group's power quality by those of the
six quantities, none of which an instant leaves QUESTIONABLE. -/
theorem instantResults : Obligations.InstantResults := by
  intro d q r
  have measured : r = (d.quantity q).atInstant (d.computed q) d.sau.inst := measure_quantity d q
  have squared : r.m2 = r.phasor.m2 := by rw [measured, QuantityRec.atInstant_m2]
  have rooted : r.rms = rmsOf r.m2 := by rw [measured, QuantityRec.atInstant_rms]
  refine ⟨?_, ?_, fun out => ?_, ?_, fun serves => ?_, fun serves => ?_, fun bounded => ?_, ?_⟩
  · rw [measured, QuantityRec.atInstant_window]
  · rw [measured, QuantityRec.atInstant_lastAt]
  · rw [measured, out]
    exact QuantityRec.atInstant_out_of_service _ _
  · rw [squared]
    exact cast_m2 r.phasor
  · rw [measured, serves, QuantityRec.atInstant_phasor_in_service, windowPhasor, dotSum_window, dotSum_window]
  · rw [measured, serves, QuantityRec.atInstant_quality_in_service]
    exact ⟨windowQuality_invalid, windowQuality_held, windowQuality_good⟩
  · rw [rooted]
    exact rmsOf_floor bounded
  · intro g va vb vc ia ib ic voltages currents
    rw [measure_powerQ voltages currents]
    exact ⟨derivedQuality_invalid, fun sound => derivedQuality_held (valid_of_measured sound), derivedQuality_good⟩

end Sys2Proof.Machine

/-!
A reset that completes on stored tables that fail their checks (O9): a MAJOR error stays listed while fewer than sixteen are, so
the SETTINGS_INVALID entries of the failing areas all stand.
-/
namespace Sys2Proof.Machine

/-! ## MAJOR errors in the list -/

/-- The number of MAJOR errors listed. -/
def majorCount (es : List ErrorEntry) : Nat := es.countP (fun e => e.code.major)

theorem majorCount_map {es : List ErrorEntry} {f : ErrorEntry → ErrorEntry} (same : ∀ e, (f e).code = e.code) :
    majorCount (es.map f) = majorCount es := by
  simp only [majorCount, List.countP_map, Function.comp_def, same]

theorem evictError_sublist (es : List ErrorEntry) : (evictError es).Sublist es := by
  unfold evictError
  split
  · exact List.eraseIdx_sublist _ _
  · exact List.drop_sublist _ _

/-- Recording an error adds at most that one to the MAJOR errors. -/
theorem majorCount_addError_le (es : List ErrorEntry) (c : ErrorCode) (n : Nat) (now : Count32) :
    majorCount (addError es c n now) ≤ majorCount es + bit c.major := by
  cases h : errorListed es c n with
  | true =>
    rw [addError_again h, majorCount_map (fun e => by split <;> rfl)]
    exact Nat.le_add_right _ _
  | false =>
    have kept : majorCount (if es.length < 16 then es else evictError es) ≤ majorCount es := by
      split
      · exact le_rfl
      · exact (evictError_sublist es).countP_le
    have new : majorCount [{ code := c, subject := n, firstMs := now, lastMs := now, count := 1 }] = bit c.major := by
      simp [majorCount, List.countP_cons, bit]
    rw [addError_new h, majorCount, List.countP_append]
    exact Nat.add_le_add kept new.le

/-- A full list that is not all MAJOR gives up a MINOR entry (R214). -/
theorem mem_evictError_of_major {es : List ErrorEntry} {e : ErrorEntry} (member : e ∈ es) (major : e.code.major = true)
    (full : 16 ≤ es.length) (few : majorCount es < 16) : e ∈ evictError es := by
  unfold evictError
  split
  next i found =>
    obtain ⟨short, minor, -⟩ := List.findIdx?_eq_some_iff_getElem.mp found
    obtain ⟨j, here, rfl⟩ := List.mem_iff_getElem.mp member
    refine List.mem_eraseIdx_iff_getElem.mpr ⟨j, here, fun same => ?_, rfl⟩
    subst same
    simp [major] at minor
  next none =>
    have all : ∀ x ∈ es, x.code.major = true := by simpa using none
    have : majorCount es = es.length := List.countP_eq_length.mpr all
    omega

theorem addError_keeps_major {es : List ErrorEntry} {c : ErrorCode} {n : Nat} (listed : errorListed es c n = true)
    (major : c.major = true) (few : majorCount es < 16) (c' : ErrorCode) (n' : Nat) (now : Count32) :
    errorListed (addError es c' n' now) c n = true := by
  obtain ⟨e, member, rfl, rfl⟩ := errorListed_iff.mp listed
  exact addError_keeps member ((Nat.lt_or_ge es.length 16).imp id (mem_evictError_of_major member major · few)) _ _ _

/-- The list after an error is recorded: with the error, and perhaps with NOTICE_OVERFLOW after it. -/
theorem recordError_errors (d : Dev) (c : ErrorCode) (n : Nat) :
    (d.recordError c n).mgt.errors = addError d.mgt.errors c n d.now ∨
      (d.recordError c n).mgt.errors = addError (addError d.mgt.errors c n d.now) .noticeOverflow noSubject d.now := by
  unfold Dev.recordError
  split
  · exact .inl rfl
  · exact queueNotice_errors _ _ _ _

theorem majorCount_recordError_le (d : Dev) (c : ErrorCode) (n : Nat) :
    majorCount (d.recordError c n).mgt.errors ≤ majorCount d.mgt.errors + 1 := by
  have noted := majorCount_addError_le d.mgt.errors c n d.now
  have one : bit c.major ≤ 1 := by cases c <;> decide
  rcases recordError_errors d c n with same | more
  · rw [same]
    omega
  · have again := majorCount_addError_le (addError d.mgt.errors c n d.now) .noticeOverflow noSubject d.now
    rw [more]
    exact again.trans (show _ + 0 ≤ _ by omega)

/-- A MAJOR error that is listed stays so as another is recorded, while the list has room for both among the MAJOR ones. -/
theorem recordError_keeps_major {d : Dev} {c : ErrorCode} {n : Nat} (listed : errorListed d.mgt.errors c n = true)
    (major : c.major = true) (few : majorCount d.mgt.errors < 15) (c' : ErrorCode) (n' : Nat) :
    errorListed (d.recordError c' n').mgt.errors c n = true := by
  have kept := addError_keeps_major listed major (by omega) c' n' d.now
  have noted := majorCount_addError_le d.mgt.errors c' n' d.now
  have one : bit c'.major ≤ 1 := by cases c' <;> decide
  rcases recordError_errors d c' n' with same | more
  · rw [same]
    exact kept
  · rw [more]
    exact addError_keeps_major kept major (by omega) _ _ _

/-! ## The errors of a reset -/

/-- Errors of one MAJOR code recorded one after another all stand, with those that stood, while they stay fewer than sixteen. -/
theorem recordErrors_listed {c : ErrorCode} (major : c.major = true) {n : Nat} (xs : List Nat) {d : Dev}
    (room : majorCount d.mgt.errors + xs.length ≤ 15) (h : n ∈ xs ∨ errorListed d.mgt.errors c n = true) :
    errorListed (forEach xs (fun a d => d.recordError c a) d).mgt.errors c n = true := by
  induction xs generalizing d with
  | nil => exact h.resolve_left List.not_mem_nil
  | cons x xs ih =>
    have count := majorCount_recordError_le d c x
    rw [List.length_cons] at room
    refine ih (d := d.recordError c x) (by omega) ?_
    rcases h with member | listed
    · rcases List.mem_cons.mp member with rfl | later
      · exact .inr (recordError_listed (.inl major) n)
      · exact .inl later
    · exact .inr (recordError_keeps_major listed major (by omega) c x)

theorem failedAreas_length (t : Tables) : t.failedAreas.length ≤ 14 := by
  rw [Tables.failedAreas, List.length_map]
  exact List.length_filter_le _ _

theorem boot_fixed (old : Dev) (t : Tables) (nomf mgw up1 up2 : Bool) :
    (old.boot t nomf mgw up1 up2).fixed = (old.booted t nomf mgw up1 up2).fixed :=
  forEach_keeps (fun d : Dev => d.fixed = (old.booted t nomf mgw up1 up2).fixed) _ _ _
    (fun _ _ h => (recordError_fixed _ _ _).trans h) rfl

/-- Settles O9: the booted device is in SERVICE mode with the zones as stored, and its errors are recorded into an empty list. -/
theorem failingTableBootsInService : Obligations.FailingTableBootsInService := by
  intro s nomf mgw up1 up2 inReset failing
  have fixed := boot_fixed s.dev s.nv nomf mgw up1 up2
  have failed : (!s.nv.failedAreas.isEmpty) = true := by simpa using failing
  have mode : (s.dev.boot s.nv nomf mgw up1 up2).mode = .service := by
    refine (congrArg Fixed.mode fixed).trans ?_
    show startModeOf _ _ = Mode.service
    rw [failed]
    rfl
  refine ⟨_, congrArg Host.Outcome.next (if_pos inReset), rfl, rfl, mode, ?_, ?_, congrArg (fun v : Fixed => v.tab.zones) fixed, ?_⟩
  · exact (congrArg (fun v : Fixed => v.mgt.2.2.2.2) fixed).trans failed
  · simp [State.healthy, Dev.healthy, mode]
  · intro a member
    have length := failedAreas_length s.nv
    exact recordErrors_listed rfl _ (d := s.dev.booted s.nv nomf mgw up1 up2) (by show 0 + _ ≤ 15; omega) (.inl member)

end Sys2Proof.Machine

/-!
Operate targets of MGT and SWM: MAINT_ON, MAINT_OFF and RESTART (O43), LOCKOUT_RESET and BLOCK_RESET (O46).
-/
namespace Sys2Proof.Machine

/-! ## A selected OPERATE -/

section
variable {s : State} {q : Request} {rest : List Request} {target object : Nat}

/-- A selected OPERATE comes to its target's decision, the reports of that, and the response. -/
theorem State.operates.exec_eq (h : s.operates q rest target object) {c : Instr} {act : Dev → Nat → Response × Dev}
    (meaning : exec c s = s.whenRunning (fun d => d.serveOperate target act)) :
    exec c s = .next (s.withDev ((act (s.dev.taking q rest) object).2.flush.respond q (act (s.dev.taking q rest) object).1)) := by
  rw [meaning, State.whenRunning_eq h.serves.running, h.serve]

/-- A target that reports nothing is answered at once. -/
theorem State.operates.exec_quiet (h : s.operates q rest target object) {c : Instr} {act : Dev → Nat → Response × Dev}
    (meaning : exec c s = s.whenRunning (fun d => d.serveOperate target act)) {r : Response} {x : Dev}
    (acts : act (s.dev.taking q rest) object = (r, x)) (quiet : x.work = []) :
    exec c s = .next (s.withDev (x.respond q r)) := by
  rw [h.exec_eq meaning, acts]
  dsimp only
  rw [Dev.flush_of_no_work x quiet]

end

/-! ## The maintenance flag and RESTART -/

theorem opMaint_zero (d : Dev) (v : Bool) :
    d.opMaint 0 v = (refuse resOk, { d with prot := { d.prot with maintFlag := v } }) := rfl

theorem opMaint_invalid (d : Dev) {n : Nat} (object : n ≠ 0) (v : Bool) : d.opMaint n v = (refuse resInvalid, d) := if_pos object

theorem opRestart_zero (d : Dev) : d.opRestart 0 = ({ result := resOk, restart := true }, d) := rfl

theorem opRestart_invalid (d : Dev) {n : Nat} (object : n ≠ 0) : d.opRestart n = (refuse resInvalid, d) := if_pos object

/-- With a RESTART's only segment its request leaves service, and the reset is due (R200, R212). -/
theorem segmentGone_restart (d : Dev) (f : OutFrame) : d.segmentGone { frame := f, endsService := true, restart := true } =
    d.modMgt (fun m => { m with service := none, restartDue := true }) := by
  simp only [Dev.segmentGone, Bool.or_true, if_true]

/-- The response of a RESTART leaves an idle port at once, and with it the reset is due (R212). -/
theorem respond_restart {d : Dev} {q : Request} (idle : d.portIdle q.port) :
    d.respond q { result := 0, restart := true } =
      (d.startOwn q.port (d.segmentFrame q 0 0 true [])).modMgt (fun m => { m with service := none, restartDue := true }) := by
  set r : Response := { result := 0, restart := true } with hr
  have free (x : Option Service) : (d.setService x).portFree q.port := idle.free.setService x
  have next := nextSegment_bytes (d := d.setService (some ⟨q, .sending r⟩)) (r := r) idle.reply rfl rfl rfl (gather_nil _ [])
  have quiet : ((d.startOwn q.port (d.segmentFrame q 0 0 true [])).modMgt
      (fun m => { m with service := none, restartDue := true })).noSegment q.port := by
    refine ⟨?_, nofun⟩
    have reply := idle.reply
    revert reply
    cases q.port <;> exact id
  rw [Dev.respond, Dev.runPort, (free _).arbitrate, pumpLimit, (free _).pump_succ ((free _).setService _) next]
  exact (congrArg _ (segmentGone_restart _ _)).trans (pump_none (nextSegment_none quiet) _)

/-- Settles O43: the three targets report nothing, and a RESTART's response is its one segment. -/
theorem maintenanceAndRestart : Obligations.MaintenanceAndRestart := by
  intro s q rest target n operates d
  have quiet : d.work = [] := operates.serves.work
  refine ⟨fun object known => ?_, ?_, ?_, ?_, ?_⟩
  · rcases known with rfl | rfl | rfl
    · exact operates.exec_quiet (c := .maintOn) rfl (opMaint_invalid d object true) quiet
    · exact operates.exec_quiet (c := .maintOff) rfl (opMaint_invalid d object false) quiet
    · exact operates.exec_quiet (c := .restart) rfl (opRestart_invalid d object) quiet
  · rintro rfl rfl
    exact operates.exec_quiet rfl (opMaint_zero d true) quiet
  · rintro rfl rfl
    exact operates.exec_quiet rfl (opMaint_zero d false) quiet
  · rintro rfl rfl
    exact operates.exec_quiet rfl (opRestart_zero d) quiet
  · rintro rfl rfl idle
    have idle' : d.portIdle q.port := idle.taking q rest
    have sent := startOwn_port d q.port (d.segmentFrame q 0 0 true [])
    have port : d.lnk.port q.port = s.dev.lnk.port q.port := congrArg (Lnk.port · q.port) (taking_lnk s.dev q rest)
    rw [port, segmentFrame_of_bare (taking_bare s.dev q rest)] at sent
    refine ⟨_, operates.exec_quiet rfl (opRestart_zero d) quiet, operates.serves.running, ?_, ?_⟩
    · rw [State.withDev, show resOk = 0 from rfl, respond_restart idle']
      rfl
    · rw [State.withDev, show resOk = 0 from rfl, respond_restart idle', segmentFrame_of_bare (taking_bare s.dev q rest)]
      exact congrArg PortRec.tx sent

/-! ## Lockouts and transfer blocks -/

theorem elementLocks_iff (d : Dev) (b : Fin 24) : d.elementLocks b = true ↔
    ∃ e, (d.element e).operated = true ∧ (d.elementCfg e).lockout = 1 ∧ b ∈ (d.elementCfg e).tripIds := by
  simp [Dev.elementLocks, and_assoc]

theorem elementBlocks_iff (d : Dev) (y : Fin 6) : d.elementBlocks y = true ↔
    ∃ e, (d.element e).operated = true ∧ (d.elementCfg e).block = 1 ∧ y ∈ d.blockBuses e := by
  simp [Dev.elementBlocks, and_assoc]

section
variable {d : Dev} {b : Fin 24} {y : Fin 6}

theorem lockoutReset_refused (holds : d.elementLocks b = true) : d.lockoutReset b = (resNotPermitted, d) := if_pos holds

theorem lockoutReset_clear (free : d.elementLocks b = false) (clear : (d.breakerCfg b).lockout = 0) :
    d.lockoutReset b = (resOk, d) := by
  simp [Dev.lockoutReset, free, Dev.writeLockout, Dev.locked, clear]

theorem lockoutReset_set (free : d.elementLocks b = false) (set : (d.breakerCfg b).lockout ≠ 0) :
    d.lockoutReset b = (resOk, { d with
      tab := { d.tab with breakers := tmod d.tab.breakers b (fun e => { e with lockout := 0 }) }
      swm := { d.swm with jobs := d.swm.jobs ++ [.lockout b 0] } }) := by
  simp [Dev.lockoutReset, free, Dev.writeLockout, Dev.locked, set, Dev.storeJob, Tables.setLockout, bit]

theorem blockReset_refused (holds : d.elementBlocks y = true) : d.blockReset y = (resNotPermitted, d) := if_pos holds

theorem blockReset_clear (free : d.elementBlocks y = false) (clear : (d.busCfg y).block = 0) : d.blockReset y = (resOk, d) := by
  simp [Dev.blockReset, free, Dev.writeBlock, Dev.blocked, clear]

theorem blockReset_set (free : d.elementBlocks y = false) (set : (d.busCfg y).block ≠ 0) :
    d.blockReset y = (resOk, { d with
      tab := { d.tab with buses := tmod d.tab.buses y (fun e => { e with block := 0 }) }
      swm := { d.swm with jobs := d.swm.jobs ++ [.block y 0] } }) := by
  simp [Dev.blockReset, free, Dev.writeBlock, Dev.blocked, set, Dev.storeJob, Tables.setBlock, bit]

theorem opLockoutReset_known (d : Dev) (b : Fin 24) : d.opLockoutReset b.val = plain (d.lockoutReset b) := by
  simp [Dev.opLockoutReset]

theorem opLockoutReset_unknown (d : Dev) {n : Nat} (none : 24 ≤ n) : d.opLockoutReset n = (refuse resInvalid, d) := by
  simp [Dev.opLockoutReset, toId_none none]

theorem opBlockReset_known (d : Dev) (y : Fin 6) : d.opBlockReset y.val = plain (d.blockReset y) := by simp [Dev.opBlockReset]

theorem opBlockReset_unknown (d : Dev) {n : Nat} (none : 6 ≤ n) : d.opBlockReset n = (refuse resInvalid, d) := by
  simp [Dev.opBlockReset, toId_none none]

end

/-- Settles O46: the flag of the object is held, clear or set, and nothing of the three is reported. -/
theorem flagsReset : Obligations.FlagsReset := by
  intro s q rest target n operates d
  have bare : d = { s.dev with mgt := d.mgt } := taking_eq s.dev q rest
  have quiet : d.work = [] := operates.serves.work
  refine ⟨?_, ?_, ?_, ?_⟩
  · rintro rfl none
    exact operates.exec_quiet rfl (opLockoutReset_unknown d none) quiet
  · rintro rfl none
    exact operates.exec_quiet rfl (opBlockReset_unknown d none) quiet
  · rintro b rfl rfl holds
    have decides : d.elementLocks b = true ↔ holds := by rw [bare]; exact elementLocks_iff s.dev b
    have entry : d.breakerCfg b = s.dev.breakerCfg b := by rw [bare]; rfl
    have acts := opLockoutReset_known d b
    refine ⟨fun held => ?_, fun free clear => ?_, fun free set => ?_⟩
    · rw [lockoutReset_refused (decides.mpr held)] at acts
      exact operates.exec_quiet rfl acts quiet
    · rw [lockoutReset_clear (Bool.eq_false_iff.mpr (mt decides.mp free)) (entry ▸ clear)] at acts
      exact operates.exec_quiet rfl acts quiet
    · rw [lockoutReset_set (Bool.eq_false_iff.mpr (mt decides.mp free)) (entry ▸ set)] at acts
      exact operates.exec_quiet rfl acts quiet
  · rintro y rfl rfl holds
    have decides : d.elementBlocks y = true ↔ holds := by rw [bare]; exact elementBlocks_iff s.dev y
    have entry : d.busCfg y = s.dev.busCfg y := by rw [bare]; rfl
    have acts := opBlockReset_known d y
    refine ⟨fun held => ?_, fun free clear => ?_, fun free set => ?_⟩
    · rw [blockReset_refused (decides.mpr held)] at acts
      exact operates.exec_quiet rfl acts quiet
    · rw [blockReset_clear (Bool.eq_false_iff.mpr (mt decides.mp free)) (entry ▸ clear)] at acts
      exact operates.exec_quiet rfl acts quiet
    · rw [blockReset_set (Bool.eq_false_iff.mpr (mt decides.mp free)) (entry ▸ set)] at acts
      exact operates.exec_quiet rfl acts quiet

end Sys2Proof.Machine

/-!
What an element that becomes operated does (R84 to R86): its requests to SWM stage by stage, each with what it leaves alone, and
the first part of O57 from these.
-/
namespace Sys2Proof.Machine

/-! ## Frames -/

/-- What every turn of a `forEach` leaves as it was, the whole leaves so. -/
theorem forEach_frame {α β : Type} (view : Dev → β) {f : α → Dev → Dev} (frame : ∀ x d, view (f x d) = view d) (xs : List α)
    (d : Dev) : view (forEach xs f d) = view d := by
  induction xs generalizing d with
  | nil => rfl
  | cons x xs ih => exact (ih (f x d)).trans (frame x d)

theorem ite_frame {β : Type} (view : Dev → β) {c : Prop} [Decidable c] {x d : Dev} (frame : view x = view d) :
    view (if c then x else d) = view d := by
  split
  · exact frame
  · rfl

/-! ## The stages of the requests -/

/-- Every breaker of a trip set is asked to open (R84, step 2). -/
def Dev.openTrips (d : Dev) (e : Fin 32) (c : ElementEntry) : Dev :=
  forEach c.tripIds (fun b d => d.protOpen b (decide (c.bf = 1)) (.element e)) d

/-- The lockouts of a trip set are set where the entry says so (R84, step 3). -/
def Dev.lockTrips (d : Dev) (c : ElementEntry) : Dev :=
  if c.lockout = 1 then forEach c.tripIds (fun b d => d.writeLockout b true) d else d

/-- The transfer blocks of an element's buses are set where the entry says so (R84, step 4). -/
def Dev.blockTrips (d : Dev) (e : Fin 32) (c : ElementEntry) : Dev :=
  if c.block = 1 then forEach (d.blockBuses e) (fun y d => d.writeBlock y true) d else d

theorem operateRequests_eq (d : Dev) (e : Fin 32) :
    d.operateRequests e = ((d.openTrips e (d.elementCfg e)).lockTrips (d.elementCfg e)).blockTrips e (d.elementCfg e) := rfl

/-- Stored tables without the entries that lockouts and transfer blocks stand in. -/
def Tables.besideFlags (t : Tables) : Tables :=
  { t with breakers := Vector.replicate 24 {}, buses := Vector.replicate 6 {} }

/-- What none of the stages touches: all but LNK, MGT, SWM, the reports and the stored entries of breakers and buses. -/
def Dev.besideTrips (d : Dev) : Dev := { d with lnk := {}, mgt := {}, swm := {}, work := [], tab := d.tab.besideFlags }

theorem besideTrips_of_shell {d x : Dev} (h : d.shell = x.shell) : d.besideTrips = x.besideTrips :=
  show d.shell.besideTrips = x.shell.besideTrips by rw [h]

theorem tab_of_shell {d x : Dev} (h : d.shell = x.shell) : d.tab = x.tab := show d.shell.tab = x.shell.tab by rw [h]

theorem blockBuses_of_besideTrips {d x : Dev} (h : d.besideTrips = x.besideTrips) (e : Fin 32) : d.blockBuses e = x.blockBuses e :=
  show d.besideTrips.blockBuses e = x.besideTrips.blockBuses e by rw [h]

/-! ## Lockouts and transfer blocks that are set -/

section
variable (d : Dev) (b x : Fin 24) (y z : Fin 6) (v : Bool)

theorem writeLockout_besideTrips : (d.writeLockout b v).besideTrips = d.besideTrips := by
  unfold Dev.writeLockout
  split <;> rfl

theorem writeLockout_breaker : (d.writeLockout b v).breaker x = d.breaker x := by
  unfold Dev.writeLockout
  split <;> rfl

theorem writeLockout_blocked : (d.writeLockout b v).blocked y = d.blocked y := by
  unfold Dev.writeLockout
  split <;> rfl

theorem writeLockout_locked : (d.writeLockout b v).locked x = if x = b then v else d.locked x := by
  unfold Dev.writeLockout
  split
  next same =>
    split
    next own => rw [own, same]
    · rfl
  · have entry : (Dev.storeJob { d with tab := d.tab.setLockout b (bit v) } (.lockout b (bit v))).breakerCfg x =
        if x = b then { d.breakerCfg x with lockout := bit v } else d.breakerCfg x := tget_tmod _ _ _ _
    rw [Dev.locked, entry]
    split
    · cases v <;> rfl
    · rfl

theorem writeBlock_besideTrips : (d.writeBlock y v).besideTrips = d.besideTrips := by
  unfold Dev.writeBlock
  split <;> rfl

theorem writeBlock_breaker : (d.writeBlock y v).breaker x = d.breaker x := by
  unfold Dev.writeBlock
  split <;> rfl

theorem writeBlock_locked : (d.writeBlock y v).locked b = d.locked b := by
  unfold Dev.writeBlock
  split <;> rfl

theorem writeBlock_blocked : (d.writeBlock y v).blocked z = if z = y then v else d.blocked z := by
  unfold Dev.writeBlock
  split
  next same =>
    split
    next own => rw [own, same]
    · rfl
  · have entry : (Dev.storeJob { d with tab := d.tab.setBlock y (bit v) } (.block y (bit v))).busCfg z =
        if z = y then { d.busCfg z with block := bit v } else d.busCfg z := tget_tmod _ _ _ _
    rw [Dev.blocked, entry]
    split
    · cases v <;> rfl
    · rfl

end

/-! ## Each stage -/

/-- Every protection record stays that of an OPEN under what requests between blocks do (R107, R111). -/
theorem protOpens_inner : Inner (fun d => ∀ b, (d.breaker b).protOpens) where
  port _ _ _ h := h
  popProt _ h := h
  popCtrl _ h := h
  popSet _ h := h
  pop12 _ h := h
  pop21 _ h := h
  putProt _ _ h := h
  putCtrl _ _ h := h
  dropCmd _ h := h
  putSet _ _ h := h
  service _ _ h := h
  popNotice _ h := h
  error _ _ h := h
  notice n h := by
    rename_i d
    have same : (d.noticePut n).swm = d.swm := by
      unfold Dev.noticePut
      dsimp only
      split <;> rfl
    intro b
    rw [Dev.breaker, same]
    exact h b
  trigger _ _ h := h
  work _ h := h
  ties _ h := h
  breaker b f _ o h := breakers_mod h b f o
  jobs _ h := h
  cause _ h := h
  gen _ _ _ h := h
  demand _ h := h
  grant _ h := h
  sync _ h := h
  busReq _ h := h
  chg _ _ h := h

section
variable (d : Dev) (e : Fin 32) (c : ElementEntry)

theorem openTrips_shell : (d.openTrips e c).shell = d.shell :=
  forEach_frame Dev.shell (fun _ _ => shell_protOpen _ _ _ _) _ d

theorem openTrips_other {b : Fin 24} (outside : b ∉ c.tripIds) : (d.openTrips e c).breaker b = d.breaker b := by
  unfold Dev.openTrips
  revert outside
  generalize c.tripIds = ids
  intro outside
  induction ids generalizing d with
  | nil => rfl
  | cons x xs ih =>
    rw [List.mem_cons, not_or] at outside
    exact (ih _ outside.2).trans (other_protOpen _ _ _ _ _ outside.1)

/-- Every used breaker of the trip set has a protection record. -/
theorem openTrips_record {b : Fin 24} (member : b ∈ c.tripIds) (used : (d.breakerCfg b).used = true) :
    ∃ r, ((d.openTrips e c).breaker b).record = some r ∧ r.prot = true := by
  unfold Dev.openTrips
  refine forEach_reaches (f := fun b d => Dev.protOpen d b (decide (c.bf = 1)) (.element e)) (I := fun x : Dev => x.shell = d.shell)
    (Q := fun x : Dev => ∃ r, (x.breaker b).record = some r ∧ r.prot = true)
    (fun k x h => (shell_protOpen _ _ _ _).trans h) (fun x h => protOpen_record _ _ _ _ ?_) (fun k x other h => ?_) member rfl
  · rw [Dev.breakerCfg, tab_of_shell h]
    exact used
  · rw [other_protOpen _ _ _ _ _ other.symm]
    exact h

theorem openTrips_protOpens (h : ∀ b, (d.breaker b).protOpens) : ∀ b, ((d.openTrips e c).breaker b).protOpens :=
  keeps_forEach (P := fun x => ∀ b, (x.breaker b).protOpens) c.tripIds _ (fun _ _ h => protOpens_inner.protOpen _ _ _ h) h

theorem lockTrips_besideTrips : (d.lockTrips c).besideTrips = d.besideTrips :=
  ite_frame Dev.besideTrips (forEach_frame Dev.besideTrips (fun _ _ => writeLockout_besideTrips _ _ _) _ d)

theorem lockTrips_breaker (b : Fin 24) : (d.lockTrips c).breaker b = d.breaker b :=
  ite_frame (Dev.breaker · b) (forEach_frame (Dev.breaker · b) (fun _ _ => writeLockout_breaker _ _ _ _) _ d)

theorem lockTrips_blocked (y : Fin 6) : (d.lockTrips c).blocked y = d.blocked y :=
  ite_frame (Dev.blocked · y) (forEach_frame (Dev.blocked · y) (fun _ _ => writeLockout_blocked _ _ _ _) _ d)

theorem lockTrips_locked (flag : c.lockout = 1) {b : Fin 24} (member : b ∈ c.tripIds) : (d.lockTrips c).locked b = true := by
  rw [Dev.lockTrips, if_pos flag]
  refine forEach_reaches (f := fun b d => Dev.writeLockout d b true) (I := fun _ => True) (Q := fun x : Dev => x.locked b = true)
    (fun _ _ h => h) (fun x _ => ?_) (fun k x other h => ?_) member trivial
  · rw [writeLockout_locked, if_pos rfl]
  · rw [writeLockout_locked, if_neg other.symm]
    exact h

theorem blockTrips_besideTrips : (d.blockTrips e c).besideTrips = d.besideTrips :=
  ite_frame Dev.besideTrips (forEach_frame Dev.besideTrips (fun _ _ => writeBlock_besideTrips _ _ _) _ d)

theorem blockTrips_breaker (b : Fin 24) : (d.blockTrips e c).breaker b = d.breaker b :=
  ite_frame (Dev.breaker · b) (forEach_frame (Dev.breaker · b) (fun _ _ => writeBlock_breaker _ _ _ _) _ d)

theorem blockTrips_locked (b : Fin 24) : (d.blockTrips e c).locked b = d.locked b :=
  ite_frame (Dev.locked · b) (forEach_frame (Dev.locked · b) (fun _ _ => writeBlock_locked _ _ _ _) _ d)

theorem blockTrips_blocked (flag : c.block = 1) {y : Fin 6} (member : y ∈ d.blockBuses e) :
    (d.blockTrips e c).blocked y = true := by
  rw [Dev.blockTrips, if_pos flag]
  refine forEach_reaches (f := fun y d => Dev.writeBlock d y true) (I := fun _ => True) (Q := fun x : Dev => x.blocked y = true)
    (fun _ _ h => h) (fun x _ => ?_) (fun k x other h => ?_) member trivial
  · rw [writeBlock_blocked, if_pos rfl]
  · rw [writeBlock_blocked, if_neg other.symm]
    exact h

end

/-! ## The requests together -/

section
variable (d : Dev) (e : Fin 32)

theorem operateRequests_besideTrips : (d.operateRequests e).besideTrips = d.besideTrips := by
  rw [operateRequests_eq, blockTrips_besideTrips, lockTrips_besideTrips, besideTrips_of_shell (openTrips_shell _ _ _)]

/-- Only the OPENs change what is kept of breakers. -/
theorem operateRequests_breaker (b : Fin 24) :
    (d.operateRequests e).breaker b = (d.openTrips e (d.elementCfg e)).breaker b := by
  rw [operateRequests_eq, blockTrips_breaker, lockTrips_breaker]

theorem operateRequests_locked (flag : (d.elementCfg e).lockout = 1) {b : Fin 24} (member : b ∈ (d.elementCfg e).tripIds) :
    (d.operateRequests e).locked b = true := by
  rw [operateRequests_eq, blockTrips_locked, lockTrips_locked _ _ flag member]

theorem operateRequests_unlocked (flag : (d.elementCfg e).lockout ≠ 1) (b : Fin 24) :
    (d.operateRequests e).locked b = d.locked b := by
  rw [operateRequests_eq, blockTrips_locked, Dev.lockTrips, if_neg flag, Dev.locked, Dev.breakerCfg,
    tab_of_shell (openTrips_shell _ _ _)]
  rfl

theorem operateRequests_blocked (flag : (d.elementCfg e).block = 1) {y : Fin 6} (member : y ∈ d.blockBuses e) :
    (d.operateRequests e).blocked y = true := by
  have same : ((d.openTrips e (d.elementCfg e)).lockTrips (d.elementCfg e)).besideTrips = d.besideTrips :=
    (lockTrips_besideTrips _ _).trans (besideTrips_of_shell (openTrips_shell _ _ _))
  rw [operateRequests_eq, blockTrips_blocked _ _ _ flag (blockBuses_of_besideTrips same e ▸ member)]

theorem operateRequests_unblocked (flag : (d.elementCfg e).block ≠ 1) (y : Fin 6) :
    (d.operateRequests e).blocked y = d.blocked y := by
  rw [operateRequests_eq, Dev.blockTrips, if_neg flag, lockTrips_blocked, Dev.blocked, Dev.busCfg,
    tab_of_shell (openTrips_shell _ _ _)]
  rfl

end

/-! ## The element that operates -/

/-- An element becoming operated counts its operation (R84, step 1). -/
def ElementRec.operate (r : ElementRec) : ElementRec := { r with operated := true, opCount := sat16 r.opCount }

/-- The device once the element has operated and asked SWM for what it needs, before CAP, its notice and its mark. -/
def Dev.tripped (d : Dev) (e : Fin 32) : Dev := (d.modElement e ElementRec.operate).operateRequests e

/-- CAP triggered where the entry says so (R84, step 5). -/
def Dev.tripCaptured (d : Dev) (e : Fin 32) : Dev :=
  if (d.elementCfg e).capture = 1 then (d.tripped e).trigger .element e.val else d.tripped e

/-- The TRIP notice asked for (R84, step 6). -/
def Dev.tripNoticed (d : Dev) (e : Fin 32) : Dev :=
  (d.tripCaptured e).tripNotice e ((d.tripCaptured e).element e).phase (d.elementCfg e).kind ((d.tripCaptured e).element e).opCount

theorem operateElement_eq (d : Dev) (e : Fin 32) : d.operateElement e = (d.tripNoticed e).markSource e true := rfl

/-- What CAP, the notice and the mark leave alone: all but LNK, MGT, CAP and the reports. -/
def Dev.besideReports (d : Dev) : Dev := { d with lnk := {}, mgt := {}, cap := {}, work := [] }

theorem besideReports_of_bare {d x : Dev} (h : d.bare = x.bare) : d.besideReports = x.besideReports :=
  show d.bare.besideReports = x.bare.besideReports by rw [h]

theorem markSource_besideReports (d : Dev) (e : Fin 32) (on : Bool) : (d.markSource e on).besideReports = d.besideReports := by
  unfold Dev.markSource
  split <;> rfl

theorem markSource_cap (d : Dev) (e : Fin 32) (on : Bool) : (d.markSource e on).cap = d.cap := by
  unfold Dev.markSource
  split <;> rfl

theorem markSource_mark {d : Dev} {e : Fin 32} {u : Utility} (target : (d.elementCfg e).target = some u) (on : Bool) :
    .mark u on ∈ (d.markSource e on).work := by simp [Dev.markSource, target]

theorem cap_of_bare {d x : Dev} (h : d.bare = x.bare) : d.cap = x.cap := show d.bare.cap = x.bare.cap by rw [h]

/-- What stands where only SWM, its stored entries, LNK, MGT, CAP and the reports may differ. -/
theorem fields_of_beside {d x : Dev} (h : d.besideReports.besideTrips = x.besideReports.besideTrips) :
    d.prot = x.prot ∧ d.chg = x.chg ∧ d.par = x.par ∧ d.meas = x.meas ∧ d.sau = x.sau ∧ d.mode = x.mode :=
  have fields : (d.prot, d.chg, d.par, d.meas, d.sau, d.mode) = (x.prot, x.chg, x.par, x.meas, x.sau, x.mode) :=
    congrArg (fun v : Dev => (v.prot, v.chg, v.par, v.meas, v.sau, v.mode)) (a₁ := d.besideReports.besideTrips)
      (a₂ := x.besideReports.besideTrips) h
  by simpa only [Prod.mk.injEq] using fields

theorem elementCfg_of_beside {d x : Dev} (h : d.besideReports.besideTrips = x.besideReports.besideTrips) (e : Fin 32) :
    d.elementCfg e = x.elementCfg e :=
  show d.besideReports.besideTrips.elementCfg e = x.besideReports.besideTrips.elementCfg e by rw [h]

section
variable (d : Dev) (e : Fin 32)

theorem tripped_besideTrips : (d.tripped e).besideTrips = (d.modElement e ElementRec.operate).besideTrips :=
  operateRequests_besideTrips _ e

theorem tripCaptured_besideReports : (d.tripCaptured e).besideReports = (d.tripped e).besideReports :=
  ite_frame Dev.besideReports rfl

theorem tripNoticed_bare : (d.tripNoticed e).bare = (d.tripCaptured e).bare := bare_queueNotice _ _ _ _

theorem tripNoticed_besideReports : (d.tripNoticed e).besideReports = (d.tripped e).besideReports :=
  (besideReports_of_bare (tripNoticed_bare d e)).trans (tripCaptured_besideReports d e)

theorem operateElement_besideReports : (d.operateElement e).besideReports = (d.tripped e).besideReports := by
  rw [operateElement_eq, markSource_besideReports, tripNoticed_besideReports]

/-- Of the rest, the requests change SWM and its stored entries alone, and the element has operated. -/
theorem beside_of_besideReports {x : Dev} (h : x.besideReports = (d.tripped e).besideReports) :
    x.besideReports.besideTrips = (d.modElement e ElementRec.operate).besideReports.besideTrips := by
  rw [h]
  show (d.tripped e).besideTrips.besideReports = _
  rw [tripped_besideTrips]
  rfl

theorem operateElement_beside :
    (d.operateElement e).besideReports.besideTrips = (d.modElement e ElementRec.operate).besideReports.besideTrips :=
  beside_of_besideReports d e (operateElement_besideReports d e)

theorem operateElement_swm : (d.operateElement e).swm = (d.tripped e).swm :=
  show (d.operateElement e).besideReports.swm = (d.tripped e).besideReports.swm by rw [operateElement_besideReports]

theorem operateElement_tab : (d.operateElement e).tab = (d.tripped e).tab :=
  show (d.operateElement e).besideReports.tab = (d.tripped e).besideReports.tab by rw [operateElement_besideReports]

theorem operateElement_element (k : Fin 32) :
    (d.operateElement e).element k = if k = e then (d.element k).operate else d.element k := by
  obtain ⟨prot, -⟩ := fields_of_beside (operateElement_beside d e)
  rw [Dev.element, prot]
  exact Dev.modElement_element d e k _

theorem operateElement_breaker (b : Fin 24) : (d.operateElement e).breaker b =
    ((d.modElement e ElementRec.operate).openTrips e (d.elementCfg e)).breaker b := by
  rw [Dev.breaker, operateElement_swm]
  exact operateRequests_breaker _ e b

theorem operateElement_locked (b : Fin 24) : (d.operateElement e).locked b = (d.tripped e).locked b := by
  rw [Dev.locked, Dev.breakerCfg, operateElement_tab]
  rfl

theorem operateElement_blocked (y : Fin 6) : (d.operateElement e).blocked y = (d.tripped e).blocked y := by
  rw [Dev.blocked, Dev.busCfg, operateElement_tab]
  rfl

theorem cap_tripped {x : Dev} (h : x.besideTrips = (d.modElement e ElementRec.operate).besideTrips) :
    (if (d.elementCfg e).capture = 1 then x.trigger .element e.val else x).cap =
      if (d.elementCfg e).capture = 1 then d.cap.trigger d.tab.capture .element e.val d.sau.inst d.now else d.cap := by
  have triggered := congrArg (fun v : Dev => v.cap.trigger v.tab.capture .element e.val v.sau.inst v.now) h
  have untouched := congrArg Dev.cap h
  split
  · exact triggered
  · exact untouched

/-- CAP is triggered where the entry says so, with the settings, the instant and the clock as they stood. -/
theorem operateElement_cap : (d.operateElement e).cap =
    if (d.elementCfg e).capture = 1 then d.cap.trigger d.tab.capture .element e.val d.sau.inst d.now else d.cap := by
  rw [operateElement_eq, markSource_cap, cap_of_bare (tripNoticed_bare d e)]
  exact cap_tripped d e (tripped_besideTrips d e)

theorem operateElement_mark {u : Utility} (target : (d.elementCfg e).target = some u) :
    .mark u true ∈ (d.operateElement e).work := by
  have entry : (d.tripNoticed e).elementCfg e = d.elementCfg e :=
    elementCfg_of_beside (beside_of_besideReports d e (tripNoticed_besideReports d e)) e
  rw [operateElement_eq]
  exact markSource_mark (entry.symm ▸ target) true

end

/-- The first part of O57. -/
theorem operateElement_acts (d : Dev) (e : Fin 32) :
    let c := d.elementCfg e
    let x := d.operateElement e
    (x.element e).operated = true ∧ (x.element e).opCount = min ((d.element e).opCount + 1) 65535 ∧
    (∀ k, k ≠ e → x.element k = d.element k) ∧
    (∀ b ∈ c.tripIds, (d.breakerCfg b).used = true → ∃ r, (x.breaker b).record = some r ∧ r.prot = true) ∧
    ((∀ b, (d.breaker b).protOpens) → ∀ b ∈ c.tripIds, (d.breakerCfg b).used = true →
      ∃ r, (x.breaker b).record = some r ∧ r.prot = true ∧ r.action = .openIt) ∧
    (∀ b, b ∉ c.tripIds → x.breaker b = d.breaker b) ∧
    (c.lockout = 1 → ∀ b ∈ c.tripIds, x.locked b = true) ∧
    (c.lockout ≠ 1 → ∀ b, x.locked b = d.locked b) ∧
    (c.block = 1 → ∀ y ∈ d.blockBuses e, x.blocked y = true) ∧
    (c.block ≠ 1 → ∀ y, x.blocked y = d.blocked y) ∧
    (c.capture ≠ 1 → x.cap = d.cap) ∧
    (c.capture = 1 → x.cap = d.cap.trigger d.tab.capture .element e.val d.sau.inst d.now) ∧
    (∀ u, c.target = some u → .mark u true ∈ x.work) ∧
    x.chg = d.chg ∧ x.par = d.par ∧ x.meas = d.meas ∧ x.sau = d.sau ∧ x.mode = d.mode := by
  intro c x
  set y := d.modElement e ElementRec.operate
  have own : x.element e = (d.element e).operate := (operateElement_element d e e).trans (if_pos rfl)
  have record {b : Fin 24} (member : b ∈ c.tripIds) (used : (d.breakerCfg b).used = true) :
      ∃ r, (x.breaker b).record = some r ∧ r.prot = true := by
    rw [operateElement_breaker d e b]
    exact openTrips_record y e c member used
  obtain ⟨-, frame⟩ := fields_of_beside (operateElement_beside d e)
  refine ⟨congrArg ElementRec.operated own, congrArg ElementRec.opCount own, fun k other => ?_, fun b => record,
    fun opens b member used => ?_, fun b outside => ?_, fun flag b member => ?_, fun flag b => ?_, fun flag z member => ?_,
    fun flag z => ?_, fun flag => ?_, fun flag => ?_, fun u => operateElement_mark d e, frame⟩
  · rw [operateElement_element, if_neg other]
  · obtain ⟨r, stands, prot⟩ := record member used
    refine ⟨r, stands, prot, ?_⟩
    rw [operateElement_breaker d e b] at stands
    exact openTrips_protOpens y e c opens b r stands prot
  · rw [operateElement_breaker d e b]
    exact openTrips_other y e c outside
  · rw [operateElement_locked]
    exact operateRequests_locked y e flag member
  · rw [operateElement_locked]
    exact operateRequests_unlocked y e flag b
  · rw [operateElement_blocked]
    exact operateRequests_blocked y e flag member
  · rw [operateElement_blocked]
    exact operateRequests_unblocked y e flag z
  · rw [operateElement_cap, if_neg flag]
  · rw [operateElement_cap, if_pos flag]

end Sys2Proof.Machine

/-!
An element at an instant: what its inputs, its tests and its timing say, and the record it is left with (R66 to R82, R90); the
inverse-time index (R58).
-/
namespace Sys2Proof.Machine

/-! ## Inputs (R67, R79, R90) -/

theorem roleValid_iff (d : Dev) (r : Option (Fin 96 × Fin 96 × Fin 96)) : d.roleValid r = true ↔ d.threeValid r := by
  cases r <;> simp [Dev.roleValid, Dev.allValid, Dev.threeValid]

theorem memberValid_iff (d : Dev) (m : ZoneMember) : d.memberValid m = true ↔ d.threeValid (d.memberCurrents m) :=
  roleValid_iff d (d.memberCurrents m)

/-- A zone is blocked by a switched member whose breaker's position says nothing (R79). -/
theorem memberIncluded_ne_none (d : Dev) (m : ZoneMember) : d.memberIncluded m ≠ none ↔
    (m.switched ≠ 0 → ∃ b, toId 24 m.breaker = some b ∧ d.position b ≠ .unknown ∧ d.position b ≠ .defect) := by
  unfold Dev.memberIncluded
  by_cases plain : m.switched = 0
  · simp [plain]
  · cases id : toId 24 m.breaker with
    | none => simp [plain]
    | some b => cases position : d.position b <;> simp [plain, position]

/-- A member is included unless it is switched and its breaker is open, where its breaker's position says anything (R79). -/
theorem memberIncluded_iff {d : Dev} {m : ZoneMember} (stands : d.memberIncluded m ≠ none) : d.memberIncluded m = some true ↔
    (m.switched = 0 ∨ ∀ b, toId 24 m.breaker = some b → d.position b ≠ .openPos) := by
  unfold Dev.memberIncluded at stands ⊢
  by_cases plain : m.switched = 0
  · simp [plain]
  · cases id : toId 24 m.breaker with
    | none => simp [plain, id] at stands
    | some b => cases position : d.position b <;> simp_all

/-- The clauses under which a zone is not blocked, by its member slots. -/
theorem zoneBlocked_eq_false_iff (d : Dev) (z : ZoneEntry) : d.zoneBlocked z = false ↔
    d.zoneKeeps z ∧ z.count ≠ 0 ∧ ∀ i : Fin 10, i.val < z.count → d.memberIncluded (tget z.members i) ≠ none ∧
      (d.memberIncluded (tget z.members i) = some true → d.threeValid (d.memberCurrents (tget z.members i))) := by
  have slot (i : Fin 10) : i ∈ z.slots ↔ i.val < z.count := by simp [ZoneEntry.slots, idsWhere]
  have included (i : Fin 10) : i ∈ d.includedSlots z ↔ i.val < z.count ∧ d.memberIncluded (tget z.members i) = some true := by
    simp [Dev.includedSlots, slot]
  simp only [Dev.zoneBlocked, Bool.or_eq_false_iff, Bool.not_eq_false', d.zoneEntryOk_iff, List.any_eq_false, slot, included,
    decide_eq_false_iff_not, decide_eq_true_eq, Bool.not_eq_true', and_assoc]
  constructor
  · rintro ⟨keeps, filled, known, -, valid⟩
    exact ⟨keeps, filled, fun i used => ⟨known i used, fun taken => (memberValid_iff _ _).1 (by simpa using valid i ⟨used, taken⟩)⟩⟩
  · rintro ⟨keeps, filled, members⟩
    refine ⟨keeps, filled, fun i used => (members i used).1, fun i used absent => ?_, fun i taken => ?_⟩
    · exact absurd (keeps.currents i used) (by simp [absent])
    · simpa using (memberValid_iff _ _).2 ((members i taken.1).2 taken.2)

/-- The inputs that the model finds valid are those that hold. -/
theorem inputsValid_iff (d : Dev) (c : ElementEntry) : d.inputsValid c = true ↔ d.inputsHold c := by
  by_cases diff : c.kind = 3
  · simp only [Dev.inputsValid, Dev.inputsHold, ElementEntry.isDiff, diff, decide_true, if_true, Bool.not_eq_true',
      zoneBlocked_eq_false_iff]
    refine and_congr_right fun _ => and_congr_right fun _ => forall_congr' fun i => imp_congr_right fun _ => ?_
    rw [← memberIncluded_ne_none]
    exact and_congr_right fun stands => by rw [memberIncluded_iff stands]
  · rw [Dev.inputsValid, if_neg (by simpa [ElementEntry.isDiff] using diff)]
    unfold Dev.inputsHold Dev.elementCurrents Dev.elementVoltages
    generalize c.kind = kind at diff
    cases c.group with
    | none => rcases kind with _ | _ | _ | _ | _ | _ | _ | _ | _ | kind <;> simp [Dev.threeValid] at diff ⊢
    | some g => rcases kind with _ | _ | _ | _ | _ | _ | _ | _ | _ | kind <;> simp [roleValid_iff] at diff ⊢

/-! ## Tests (R69 to R73, R80, R81) -/

theorem largest_fst (a b c : Nat) : (largest a b c).1 = max (max a b) c := by
  unfold largest
  repeat' split
  all_goals omega

theorem smallest_fst (a b c : Nat) : (smallest a b c).1 = min (min a b) c := by
  unfold smallest
  repeat' split
  all_goals omega

theorem maintained_iff (d : Dev) (c : ElementEntry) : d.maintained c = true ↔ d.maintenance c := by
  simp [Dev.maintained, Dev.maintenance, Dev.overlay, and_assoc]

theorem pickupInForce_eq {d : Dev} {c : ElementEntry} {p : Nat} (maintained : d.maintenance c → p = c.maintPickup)
    (plain : ¬ d.maintenance c → p = c.pickup.toNat) : p = d.pickupInForce c := by
  unfold Dev.pickupInForce
  split
  next on => exact maintained ((maintained_iff d c).1 on)
  next off => exact plain (fun on => off ((maintained_iff d c).2 on))

/-- Only the definite-time overcurrent kinds have a maintenance pickup (R81). -/
theorem pickupInForce_of_kind {d : Dev} {c : ElementEntry} (one : c.kind ≠ 1) (two : c.kind ≠ 2) :
    d.pickupInForce c = c.pickup.toNat := by simp [Dev.pickupInForce, Dev.maintained, one, two]

theorem delayInForce_eq {d : Dev} {c : ElementEntry} {delay : Nat} (diff : c.kind = 3 → delay = 1)
    (maintained : c.kind ≠ 3 → d.maintenance c → delay = 0) (plain : c.kind ≠ 3 → ¬ d.maintenance c → delay = c.delay) :
    delay = d.delayInForce c := by
  unfold Dev.delayInForce ElementEntry.isDiff
  split
  next kind => exact diff (of_decide_eq_true kind)
  next kind =>
    have kind : c.kind ≠ 3 := by simpa using kind
    split
    next on => exact maintained kind ((maintained_iff d c).1 on)
    next off => exact plain kind (fun on => off ((maintained_iff d c).2 on))

theorem diffTests_iff (d : Dev) (c : ElementEntry) :
    ((d.diffTests c).pick = true ↔ d.zonePasses c) ∧ ((d.diffTests c).drop = true ↔ ¬ d.zonePasses c) := by
  have pick : (d.diffTests c).pick = true ↔ d.zonePasses c := by simp [Dev.diffTests, Dev.zonePasses, diffPasses, or_assoc]
  refine ⟨pick, ?_⟩
  rw [← pick]
  simp [Dev.diffTests]

section
variable {d : Dev} {c : ElementEntry} {x : Fin 96 × Fin 96 × Fin 96}

theorem assess_overcurrent (kind : c.kind = 0 ∨ c.kind = 1) (present : d.elementCurrents c = some x) :
    d.assess c = overTests (largest (d.quantity x.1).m2 (d.quantity x.2.1).m2 (d.quantity x.2.2).m2) (d.pickupInForce c) := by
  obtain ⟨g, group, currents⟩ := Option.bind_eq_some_iff.1 present
  rcases kind with kind | kind <;> simp [Dev.assess, ElementEntry.isDiff, kind, group, currents, Dev.roleM2]

theorem assess_undervoltage (kind : c.kind = 4) (present : d.elementVoltages c = some x) : d.assess c = underVoltageTests
    ((if c.phaseMode = 1 then largest else smallest) (d.quantity x.1).m2 (d.quantity x.2.1).m2 (d.quantity x.2.2).m2)
      c.pickup.toNat := by
  obtain ⟨g, group, voltages⟩ := Option.bind_eq_some_iff.1 present
  simp [Dev.assess, ElementEntry.isDiff, kind, group, voltages, Dev.roleM2]

theorem assess_overvoltage (kind : c.kind = 5) (present : d.elementVoltages c = some x) : d.assess c = overVoltageTests
    (largest (d.quantity x.1).m2 (d.quantity x.2.1).m2 (d.quantity x.2.2).m2) c.pickup.toNat := by
  obtain ⟨g, group, voltages⟩ := Option.bind_eq_some_iff.1 present
  simp [Dev.assess, ElementEntry.isDiff, kind, group, voltages, Dev.roleM2]

/-- What the tests of an element with its inputs say is what its kind's rules say at its pickup in force. -/
def Dev.judges (d : Dev) (c : ElementEntry) : Prop :=
  ((d.assess c).pick = true ↔ d.picksUp c (d.pickupInForce c)) ∧ ((d.assess c).drop = true ↔ d.dropsOut c (d.pickupInForce c))

theorem judges_overcurrent (kind : c.kind = 0 ∨ c.kind = 1) (present : d.elementCurrents c = some x) : d.judges c := by
  unfold Dev.judges
  rw [assess_overcurrent kind present]
  rcases kind with kind | kind <;>
    simp only [Dev.picksUp, Dev.dropsOut, kind, present, overTests, largest_fst, decide_eq_true_eq, Option.some.injEq,
      exists_eq_left', List.mem_cons, List.not_mem_nil, or_false, forall_eq_or_imp, exists_eq_or_imp, exists_eq_left, forall_eq] <;>
    omega

theorem judges_undervoltage (kind : c.kind = 4) (present : d.elementVoltages c = some x) : d.judges c := by
  unfold Dev.judges
  rw [assess_undervoltage kind present, pickupInForce_of_kind (by simp [kind]) (by simp [kind])]
  by_cases all : c.phaseMode = 1 <;>
    simp only [Dev.picksUp, Dev.dropsOut, kind, present, underVoltageTests, all, if_true, if_false, largest_fst, smallest_fst,
      decide_eq_true_eq, Option.some.injEq, exists_eq_left', List.mem_cons, List.not_mem_nil, or_false, forall_eq_or_imp,
      exists_eq_or_imp, exists_eq_left, forall_eq] <;>
    omega

theorem judges_overvoltage (kind : c.kind = 5) (present : d.elementVoltages c = some x) : d.judges c := by
  unfold Dev.judges
  rw [assess_overvoltage kind present, pickupInForce_of_kind (by simp [kind]) (by simp [kind])]
  simp only [Dev.picksUp, Dev.dropsOut, kind, present, overVoltageTests, largest_fst, decide_eq_true_eq, Option.some.injEq,
    exists_eq_left', List.mem_cons, List.not_mem_nil, or_false, forall_eq_or_imp, exists_eq_or_imp, exists_eq_left, forall_eq]
  omega

theorem judges_diff (kind : c.kind = 3) : d.judges c := by
  simpa [Dev.judges, Dev.assess, ElementEntry.isDiff, Dev.picksUp, Dev.dropsOut, kind] using diffTests_iff d c

/-- The kinds that compare one value of the group itself: the residual, the frequency deviation, the power. -/
theorem judges_single {g : Fin 24} (kind : c.kind = 2 ∨ c.kind = 6 ∨ c.kind = 7 ∨ c.kind = 8) (group : c.group = some g) :
    d.judges c := by
  have truncated (x : Int) : truncDiv x 100 = Int.tdiv x 100 := rfl
  rcases kind with kind | kind | kind | kind <;>
    simp only [Dev.judges, Dev.assess, ElementEntry.isDiff, Dev.picksUp, Dev.dropsOut, kind, group, overTests, truncated,
      Option.some.injEq, exists_eq_left', decide_eq_true_eq, Nat.reduceEqDiff, if_false, and_self]

theorem judges_of_inputs (inputs : d.inputsHold c) : d.judges c := by
  unfold Dev.inputsHold at inputs
  split at inputs
  next kind => exact judges_overcurrent (.inl kind) inputs.choose_spec.1
  next kind => exact judges_overcurrent (.inr kind) inputs.choose_spec.1
  next kind => exact judges_single (.inl kind) inputs.choose_spec.1
  next kind => exact judges_diff kind
  next kind => exact judges_undervoltage kind inputs.choose_spec.1
  next kind => exact judges_overvoltage kind inputs.choose_spec.1
  next kind => exact judges_single (.inr (.inl kind)) inputs.choose_spec.1
  next kind => exact judges_single (.inr (.inr (.inl kind))) inputs.choose_spec.1
  next kind => exact judges_single (.inr (.inr (.inr kind))) inputs.choose_spec.1
  · exact inputs.elim

end

/-! ## The record that an instant leaves (R66, R75 to R77, R82) -/

/-- A timed element becomes operated, or ceases to be, or stays as it is (R66). -/
def ElementRec.settle (t : ElementRec) (complete : Bool) : ElementRec :=
  if t.operated then (if t.picked then t else { t with operated := false }) else if complete then t.operate else t

/-- The record of an evaluated element whose inputs hold. -/
def Dev.elementAfter (d : Dev) (c : ElementEntry) (r : ElementRec) : ElementRec :=
  (d.timeElement c r (d.assess c)).settle (d.timedOut c (d.timeElement c r (d.assess c)))

/-- The record of a blocked element. -/
def ElementRec.blockedNow (r : ElementRec) : ElementRec :=
  { r with operated := false, blocked := true, picked := false, phase := .none }

/-- What an element leaves to the others: all but PROT, SWM and its stored entries, LNK, MGT, CAP and the reports. -/
def Dev.besideElements (d : Dev) : Dev := { d.besideReports.besideTrips with prot := {} }

theorem operateElement_besideElements (d : Dev) (e : Fin 32) : (d.operateElement e).besideElements = d.besideElements :=
  congrArg (fun v : Dev => { v with prot := {} }) (a₁ := (d.operateElement e).besideReports.besideTrips)
    (a₂ := (d.modElement e ElementRec.operate).besideReports.besideTrips) (operateElement_beside d e)

theorem markSource_besideElements (d : Dev) (e : Fin 32) (on : Bool) : (d.markSource e on).besideElements = d.besideElements := by
  unfold Dev.markSource
  split <;> rfl

theorem unoperate_besideElements (d : Dev) (e : Fin 32) : (d.unoperate e).besideElements = d.besideElements :=
  ite_frame Dev.besideElements (markSource_besideElements _ e false)

theorem modElement_besideElements (d : Dev) (e : Fin 32) (f : ElementRec → ElementRec) :
    (d.modElement e f).besideElements = d.besideElements := rfl

section
variable (d : Dev) (e : Fin 32)

/-- The device with one element timed, its operated flag still to be settled. -/
def Dev.timed : Dev := d.modElement e (fun r => d.timeElement (d.elementCfg e) r (d.assess (d.elementCfg e)))

theorem timed_element (k : Fin 32) : (d.timed e).element k =
    if k = e then d.timeElement (d.elementCfg e) (d.element k) (d.assess (d.elementCfg e)) else d.element k :=
  Dev.modElement_element _ _ _ _

/-- How an evaluation ends (R66). -/
theorem evaluateElement_eq : d.evaluateElement e =
    if d.inputsValid (d.elementCfg e) then
      if ((d.timed e).element e).operated then (if ((d.timed e).element e).picked then d.timed e else (d.timed e).unoperate e)
      else if d.timedOut (d.elementCfg e) ((d.timed e).element e) then (d.timed e).operateElement e
      else d.timed e
    else d.blockElement e := rfl

theorem blockElement_element (k : Fin 32) : (d.blockElement e).element k =
    if k = e then (d.element k).blockedNow else d.element k := by
  rw [Dev.blockElement, Dev.modElement_element, unoperate_element]
  split <;> rfl

theorem evaluateElement_element (k : Fin 32) : (d.evaluateElement e).element k =
    if k = e then
      if d.inputsValid (d.elementCfg e) then d.elementAfter (d.elementCfg e) (d.element k) else (d.element k).blockedNow
    else d.element k := by
  rw [evaluateElement_eq]
  split
  · by_cases same : k = e
    · subst same
      have own := (timed_element d k k).trans (if_pos rfl)
      rw [if_pos rfl, Dev.elementAfter, ← own, ElementRec.settle]
      split
      · split
        · rfl
        · rw [unoperate_element, if_pos rfl]
      · split
        · rw [operateElement_element, if_pos rfl]
        · rfl
    · rw [if_neg same]
      have other := (timed_element d e k).trans (if_neg same)
      split
      · split
        · exact other
        · rw [unoperate_element, if_neg same, other]
      · split
        · rw [operateElement_element, if_neg same, other]
        · exact other
  · rw [blockElement_element]

theorem evaluateElement_besideElements : (d.evaluateElement e).besideElements = d.besideElements := by
  rw [evaluateElement_eq]
  repeat' split
  · rfl
  · exact unoperate_besideElements _ e
  · exact operateElement_besideElements _ e
  · rfl
  · exact unoperate_besideElements d e

/-- What an instant notes of every enabled element, forced or not. -/
def Dev.sampledAt (x : Dev) (e : Fin 32) (c : ElementEntry) : Dev :=
  x.modElement e (fun r => { r with lastAt := x.sau.inst, included := if c.isDiff then x.includedSlots (x.elementZone c) else [] })

/-- The device with one element evaluated, or its blocked flag brought up to date where it is forced (R66, R82). -/
def Dev.elementTurn : Dev :=
  if (d.element e).forced = .none then d.evaluateElement e
  else d.modElement e (fun r => { r with blocked := !d.inputsValid (d.elementCfg e) })

theorem elementInstant_eq : d.elementInstant e =
    if (d.elementCfg e).enable = 0 then d else (d.elementTurn e).sampledAt e (d.elementCfg e) := rfl

theorem elementTurn_besideElements : (d.elementTurn e).besideElements = d.besideElements := by
  unfold Dev.elementTurn
  split
  · exact evaluateElement_besideElements d e
  · rfl

theorem elementInstant_besideElements : (d.elementInstant e).besideElements = d.besideElements := by
  rw [elementInstant_eq]
  split
  · rfl
  · exact elementTurn_besideElements d e

theorem elementTurn_element (k : Fin 32) : (d.elementTurn e).element k =
    if k = e then
      if (d.element e).forced = .none then
        if d.inputsValid (d.elementCfg e) then d.elementAfter (d.elementCfg e) (d.element k) else (d.element k).blockedNow
      else { d.element k with blocked := !d.inputsValid (d.elementCfg e) }
    else d.element k := by
  unfold Dev.elementTurn
  split
  · exact evaluateElement_element d e k
  · exact Dev.modElement_element d e k _

theorem elementInstant_other {k : Fin 32} (other : k ≠ e) : (d.elementInstant e).element k = d.element k := by
  rw [elementInstant_eq]
  split
  · rfl
  · rw [Dev.sampledAt, Dev.modElement_element, if_neg other, elementTurn_element, if_neg other]

/-- The record of an enabled element after an instant, but for the inclusion that it notes. -/
theorem elementInstant_own (enabled : (d.elementCfg e).enable ≠ 0) : ∃ i, (d.elementInstant e).element e =
    { (if (d.element e).forced = .none then
        if d.inputsValid (d.elementCfg e) then d.elementAfter (d.elementCfg e) (d.element e) else (d.element e).blockedNow
      else { d.element e with blocked := !d.inputsValid (d.elementCfg e) }) with lastAt := d.sau.inst, included := i } := by
  have clock : (d.elementTurn e).sau = d.sau :=
    congrArg Dev.sau (a₁ := (d.elementTurn e).besideElements) (a₂ := d.besideElements) (elementTurn_besideElements d e)
  rw [elementInstant_eq, if_neg enabled, Dev.sampledAt, Dev.modElement_element, if_pos rfl, elementTurn_element, if_pos rfl, clock]
  exact ⟨_, rfl⟩

end

/-! ## What a settled record says -/

/-- What settling leaves alone: all but the operated flag and the operate count. -/
def ElementRec.timing (r : ElementRec) : ElementRec := { r with operated := false, opCount := 0 }

section
variable (t : ElementRec) (b : Bool)

theorem settle_timing : (t.settle b).timing = t.timing := by
  unfold ElementRec.settle
  split
  · split <;> rfl
  · split <;> rfl

theorem settle_picked : (t.settle b).picked = t.picked :=
  congrArg ElementRec.picked (a₁ := (t.settle b).timing) (a₂ := t.timing) (settle_timing t b)

theorem settle_phase : (t.settle b).phase = t.phase :=
  congrArg ElementRec.phase (a₁ := (t.settle b).timing) (a₂ := t.timing) (settle_timing t b)

theorem settle_integrator : (t.settle b).integrator = t.integrator :=
  congrArg ElementRec.integrator (a₁ := (t.settle b).timing) (a₂ := t.timing) (settle_timing t b)

theorem settle_counter : (t.settle b).counter = t.counter :=
  congrArg ElementRec.counter (a₁ := (t.settle b).timing) (a₂ := t.timing) (settle_timing t b)

theorem settle_operated : (t.settle b).operated = if t.operated then t.picked else b := by
  unfold ElementRec.settle
  cases was : t.operated with
  | true => cases up : t.picked <;> simp [was]
  | false => cases b <;> simp [was, ElementRec.operate]

theorem settle_opCount : (t.settle b).opCount =
    if t.operated = false ∧ (t.settle b).operated = true then min (t.opCount + 1) 65535 else t.opCount := by
  rw [settle_operated]
  unfold ElementRec.settle
  cases was : t.operated with
  | true => cases t.picked <;> simp
  | false => cases b <;> simp [ElementRec.operate, sat16, Config.saturate16]

end

section
variable (d : Dev) (c : ElementEntry) (r : ElementRec)

/-- An element whose inputs hold is not blocked, and stays unforced. -/
theorem elementAfter_flags : (d.elementAfter c r).blocked = false ∧ (d.elementAfter c r).forced = r.forced := by
  have same := settle_timing (d.timeElement c r (d.assess c)) (d.timedOut c (d.timeElement c r (d.assess c)))
  exact ⟨congrArg ElementRec.blocked (a₁ := (d.elementAfter c r).timing) same,
    congrArg ElementRec.forced (a₁ := (d.elementAfter c r).timing) (a₂ := (d.timeElement c r (d.assess c)).timing) same⟩

theorem elementAfter_picked : (d.elementAfter c r).picked = if r.picked then !(d.assess c).drop else (d.assess c).pick :=
  settle_picked _ _

theorem elementAfter_phase (down : (d.elementAfter c r).picked = false) : (d.elementAfter c r).phase = .none := by
  rw [elementAfter_picked] at down
  exact (settle_phase _ _).trans (if_neg (Bool.eq_false_iff.1 down))

/-- The timing of the inverse-time kind (R75, R76). -/
theorem elementAfter_integrator (kind : c.kind = 0) : (d.elementAfter c r).integrator =
    d.tab.integrate c (d.elementAfter c r).picked (d.assess c).m2 r.integrator := by
  rw [elementAfter_picked]
  exact (settle_integrator _ _).trans (if_pos kind)

theorem elementAfter_integrator_held (kind : c.kind ≠ 0) : (d.elementAfter c r).integrator = r.integrator :=
  (settle_integrator _ _).trans (if_neg kind)

theorem elementAfter_counter_held (kind : c.kind = 0) : (d.elementAfter c r).counter = r.counter :=
  (settle_counter _ _).trans (if_pos kind)

/-- The timing of the definite-time kinds (R77). -/
theorem elementAfter_counter (kind : c.kind ≠ 0) : (d.elementAfter c r).counter =
    if r.picked = false then r.counter else if (d.elementAfter c r).picked = true then min (r.counter + 1) 65535 else 0 := by
  have counted : (d.elementAfter c r).counter = countInstant r.picked (d.elementAfter c r).picked r.counter := by
    rw [elementAfter_picked]
    exact (settle_counter _ _).trans (if_neg kind)
  rw [counted]
  cases r.picked <;> cases (d.elementAfter c r).picked <;> rfl

/-- An element is operated while it is picked up once its timing is complete (R66, R75, R77). -/
theorem elementAfter_operated : (d.elementAfter c r).operated = true ↔ (d.elementAfter c r).picked = true ∧
    (r.operated = true ∨ if c.kind = 0 then (d.elementAfter c r).integrator = 16777216
      else d.delayInForce c ≤ (d.elementAfter c r).counter) := by
  have complete (t : ElementRec) : d.timedOut c t = true ↔ t.picked = true ∧
      if c.kind = 0 then t.integrator = 16777216 else d.delayInForce c ≤ t.counter := by
    unfold Dev.timedOut
    rw [Bool.and_eq_true]
    split <;> exact and_congr_right fun _ => decide_eq_true_iff
  have was : (d.timeElement c r (d.assess c)).operated = r.operated := rfl
  unfold Dev.elementAfter
  rw [settle_operated, settle_picked, settle_integrator, settle_counter, was]
  cases r.operated with
  | true => simp
  | false => simp [complete]

theorem elementAfter_opCount : (d.elementAfter c r).opCount =
    if r.operated = false ∧ (d.elementAfter c r).operated = true then min (r.opCount + 1) 65535 else r.opCount :=
  settle_opCount _ _

/-- The increment of an inverse-time element with its currents (R75). -/
theorem increment_of_currents {x : Fin 96 × Fin 96 × Fin 96} (kind : c.kind = 0) (present : d.elementCurrents c = some x) :
    d.tab.increment c (d.assess c).m2 = min 16777216 (d.tab.curveEntry c.curve
      (inverseIndex (max (max (d.quantity x.1).m2 (d.quantity x.2.1).m2) (d.quantity x.2.2).m2) c.pickup.toNat)
        * 100 / c.dial) := by
  rw [assess_overcurrent (.inl kind) present, overTests, largest_fst]
  rfl

end

/-! ## The second part of O57 -/

/-- What an evaluation leaves of an element whose inputs hold (R66, R69 to R77, R80, R81). -/
def Dev.evaluatesTo (d : Dev) (c : ElementEntry) (p delay : Nat) (r r' : ElementRec) : Prop :=
  r'.blocked = false ∧
  (r.picked = false → (r'.picked = true ↔ d.picksUp c p)) ∧
  (r.picked = true → (r'.picked = false ↔ d.dropsOut c p)) ∧
  (r'.picked = false → r'.phase = .none) ∧
  (c.kind ≠ 0 → r'.integrator = r.integrator ∧
    r'.counter = (if r.picked = false then r.counter else if r'.picked = true then min (r.counter + 1) 65535 else 0) ∧
    (r'.operated = true ↔ r'.picked = true ∧ (r.operated = true ∨ delay ≤ r'.counter))) ∧
  (c.kind = 0 → r'.counter = r.counter ∧
    (r'.picked = false → r'.integrator = if c.resetMode = 1 then r.integrator - c.decay else 0) ∧
    (∀ a b f, d.elementCurrents c = some (a, b, f) → r'.picked = true → r'.integrator = min 16777216 (r.integrator +
      min 16777216 (d.tab.curveEntry c.curve (inverseIndex (max (max (d.quantity a).m2 (d.quantity b).m2) (d.quantity f).m2)
        c.pickup.toNat) * 100 / c.dial))) ∧
    (r'.operated = true ↔ r'.picked = true ∧ (r.operated = true ∨ r'.integrator = 16777216))) ∧
  r'.opCount = (if r.operated = false ∧ r'.operated = true then min (r.opCount + 1) 65535 else r.opCount)

theorem elementAfter_evaluates {d : Dev} {c : ElementEntry} (r : ElementRec) (inputs : d.inputsHold c) :
    d.evaluatesTo c (d.pickupInForce c) (d.delayInForce c) r (d.elementAfter c r) := by
  obtain ⟨picks, drops⟩ := judges_of_inputs inputs
  refine ⟨(elementAfter_flags d c r).1, fun down => ?_, fun up => ?_, elementAfter_phase d c r, fun kind => ⟨?_, ?_, ?_⟩,
    fun kind => ⟨?_, fun down => ?_, fun a b f present up => ?_, ?_⟩, elementAfter_opCount d c r⟩
  · rw [elementAfter_picked, if_neg (Bool.eq_false_iff.1 down), picks]
  · rw [elementAfter_picked, if_pos up, Bool.not_eq_false', drops]
  · exact elementAfter_integrator_held d c r kind
  · exact elementAfter_counter d c r kind
  · rw [elementAfter_operated, if_neg kind]
  · exact elementAfter_counter_held d c r kind
  · rw [elementAfter_integrator d c r kind, down]
    rfl
  · rw [elementAfter_integrator d c r kind, up, ← increment_of_currents d c kind present]
    rfl
  · rw [elementAfter_operated, if_pos kind]

/-- The second part of O57. -/
theorem elementInstant_acts (d : Dev) (e : Fin 32) (p delay : Nat)
    (maintained : d.maintenance (d.elementCfg e) → p = (d.elementCfg e).maintPickup)
    (plain : ¬ d.maintenance (d.elementCfg e) → p = (d.elementCfg e).pickup.toNat)
    (diff : (d.elementCfg e).kind = 3 → delay = 1)
    (atOnce : (d.elementCfg e).kind ≠ 3 → d.maintenance (d.elementCfg e) → delay = 0)
    (delayed : (d.elementCfg e).kind ≠ 3 → ¬ d.maintenance (d.elementCfg e) → delay = (d.elementCfg e).delay) :
    let c := d.elementCfg e
    let r := d.element e
    let x := d.elementInstant e
    let r' := x.element e
    (c.enable = 0 → x = d) ∧ (∀ k, k ≠ e → x.element k = d.element k) ∧ x.meas = d.meas ∧ x.chg = d.chg ∧ x.par = d.par ∧
    (c.enable ≠ 0 → r'.lastAt = d.sau.inst ∧ r'.forced = r.forced) ∧
    (c.enable ≠ 0 → r.forced ≠ .none → (r'.blocked = true ↔ ¬ d.inputsHold c) ∧ r'.operated = r.operated ∧
      r'.picked = r.picked ∧ r'.integrator = r.integrator ∧ r'.counter = r.counter ∧ r'.opCount = r.opCount) ∧
    (c.enable ≠ 0 → r.forced = .none → ¬ d.inputsHold c → r'.blocked = true ∧ r'.picked = false ∧ r'.phase = .none ∧
      r'.operated = false ∧ r'.integrator = r.integrator ∧ r'.counter = r.counter ∧ r'.opCount = r.opCount) ∧
    (c.enable ≠ 0 → r.forced = .none → d.inputsHold c → d.evaluatesTo c p delay r r') := by
  intro c r x r'
  have frame : (x.meas, x.chg, x.par) = (d.meas, d.chg, d.par) :=
    congrArg (fun v : Dev => (v.meas, v.chg, v.par)) (a₁ := x.besideElements) (a₂ := d.besideElements)
      (elementInstant_besideElements d e)
  simp only [Prod.mk.injEq] at frame
  refine ⟨fun disabled => (elementInstant_eq d e).trans (if_pos disabled), fun k => elementInstant_other d e, frame.1, frame.2.1,
    frame.2.2, fun enabled => ?_, fun enabled forced => ?_, fun enabled free missing => ?_, fun enabled free inputs => ?_⟩
  all_goals obtain ⟨i, own⟩ := elementInstant_own d e enabled
  · refine ⟨congrArg ElementRec.lastAt own, (congrArg ElementRec.forced own).trans ?_⟩
    dsimp only
    split
    · split
      · exact (elementAfter_flags d _ _).2
      · rfl
    · rfl
  · rw [if_neg forced] at own
    have own : r' = _ := own
    rw [own, ← inputsValid_iff]
    exact ⟨by simp [c], rfl, rfl, rfl, rfl, rfl⟩
  · have off : ¬ d.inputsValid c = true := fun on => missing ((inputsValid_iff d c).1 on)
    rw [if_pos free, if_neg off] at own
    have own : r' = _ := own
    rw [own]
    exact ⟨rfl, rfl, rfl, rfl, rfl, rfl, rfl⟩
  · rw [if_pos free, if_pos ((inputsValid_iff d c).2 inputs)] at own
    have own : r' = _ := own
    rw [own, pickupInForce_eq maintained plain, delayInForce_eq diff atOnce delayed]
    exact elementAfter_evaluates r inputs

/-! ## The inverse-time index (R58) -/

/-- A number between the squares of two neighbours has the lower as its root. -/
theorem isqrt_eq {n k : Nat} (small : n < 2 ^ 64) (low : k * k ≤ n) (high : n < (k + 1) * (k + 1)) : isqrt n = k := by
  obtain ⟨below, above⟩ := isqrt_floor small
  have le : k < isqrt n + 1 := Nat.mul_self_lt_mul_self_iff.1 (low.trans_lt above)
  have ge : isqrt n < k + 1 := Nat.mul_self_lt_mul_self_iff.1 (below.trans_lt high)
  omega

theorem inverseIndex_of_root {m2 p k : Nat} (small : 128 * m2 < 2 ^ 64) (low : k * k ≤ 128 * m2 / (p * p))
    (high : 128 * m2 / (p * p) < (k + 1) * (k + 1)) :
    inverseIndex m2 p = if 512 ≤ k then 47 else if k < 16 then 0 else 8 * (Nat.log2 k - 4) + (k / 2 ^ (Nat.log2 k - 3)) % 8 := by
  unfold inverseIndex
  rw [isqrt_eq ((Nat.div_le_self _ _).trans_lt small) low high]

/-- The octave and the step within it of a root (R58). -/
theorem octave_of_root {e m k : Nat} (four : 4 ≤ e) (step : m < 8) (low : (8 + m) * 2 ^ (e - 3) ≤ k)
    (high : k < (8 + m + 1) * 2 ^ (e - 3)) : Nat.log2 k = e ∧ k / 2 ^ (e - 3) = 8 + m := by
  have octave : 2 ^ e = 8 * 2 ^ (e - 3) := by rw [show (8 : Nat) = 2 ^ 3 from rfl, ← pow_add]; congr 1; omega
  have low' : 8 * 2 ^ (e - 3) ≤ (8 + m) * 2 ^ (e - 3) := Nat.mul_le_mul_right _ (by omega)
  have high' : (8 + m + 1) * 2 ^ (e - 3) ≤ 16 * 2 ^ (e - 3) := Nat.mul_le_mul_right _ (by omega)
  have floor : 2 ^ e ≤ k := by omega
  have ceiling : k < 2 ^ (e + 1) := by rw [pow_succ]; omega
  have positive : k ≠ 0 := by have := Nat.two_pow_pos e; omega
  exact ⟨(Nat.log2_eq_iff positive).2 ⟨floor, ceiling⟩, Nat.div_eq_of_lt_le low high⟩

/-- The third part of O57. -/
theorem inverseIndex_acts (m2 p k : Nat) (_ : 0 < p) (small : 128 * m2 < 2 ^ 64) (low : k * k ≤ 128 * m2 / (p * p))
    (high : 128 * m2 / (p * p) < (k + 1) * (k + 1)) :
    (512 ≤ k → inverseIndex m2 p = 47) ∧ (k < 16 → inverseIndex m2 p = 0) ∧
    (∀ e m, 4 ≤ e → e ≤ 8 → m < 8 → (8 + m) * 2 ^ (e - 3) ≤ k → k < (8 + m + 1) * 2 ^ (e - 3) →
      inverseIndex m2 p = 8 * (e - 4) + m) := by
  rw [inverseIndex_of_root small low high]
  refine ⟨fun top => if_pos top, fun bottom => ?_, fun e m four eight step least most => ?_⟩
  · rw [if_neg (by omega), if_pos bottom]
  · obtain ⟨octave, place⟩ := octave_of_root four step least most
    have two : 2 ≤ 2 ^ (e - 3) := Nat.pow_le_pow_right (n := 2) (i := 1) (by omega) (by omega)
    have half : 2 ^ (e - 3) ≤ 32 := Nat.pow_le_pow_right (n := 2) (j := 5) (by omega) (by omega)
    have above : 16 ≤ k := (Nat.mul_le_mul (by omega : 8 ≤ 8 + m) two).trans least
    have below : k < 512 := most.trans_le (Nat.mul_le_mul (by omega : 8 + m + 1 ≤ 16) half)
    rw [if_neg (by omega), if_neg (by omega), octave, place]
    omega

/-- Settles O57, by the requests of an element that operates, its record after an instant, and the root of the floored ratio. -/
theorem operatedElementActs : Obligations.OperatedElementActs :=
  ⟨operateElement_acts, fun d e p delay maintained plain diff atOnce delayed =>
    elementInstant_acts d e p delay maintained plain diff atOnce delayed, inverseIndex_acts⟩

end Sys2Proof.Machine

/-!
Changes of the mode (O42): what each block takes of one, stage by stage.
-/
namespace Sys2Proof.Machine

/-! ## Releases and resets -/

/-- What a change of mode leaves alone: all but SWM, PROT, CHG and the reports. -/
def Dev.besideModes (d : Dev) : Dev := { d with swm := {}, prot := {}, chg := {}, work := [] }

section
variable (d : Dev) (b : Fin 24) (e : Fin 32)

theorem forceBreaker_breaker (k : Fin 24) (o : ForcedBreaker) :
    (d.forceBreaker b o).breaker k = if k = b then { d.breaker k with forced := o } else d.breaker k :=
  updateBreaker_breaker d b k _

theorem forceBreaker_frame (o : ForcedBreaker) : (d.forceBreaker b o).besideModes = d.besideModes ∧
    (d.forceBreaker b o).prot = d.prot ∧ (d.forceBreaker b o).chg = d.chg := by
  unfold Dev.forceBreaker Dev.updateBreaker
  dsimp only
  split <;> exact ⟨rfl, rfl, rfl⟩

theorem unoperate_frame : (d.unoperate e).besideModes = d.besideModes ∧ (d.unoperate e).swm = d.swm ∧
    (d.unoperate e).chg = d.chg := by
  unfold Dev.unoperate Dev.markSource
  split
  · split <;> exact ⟨rfl, rfl, rfl⟩
  · exact ⟨rfl, rfl, rfl⟩

theorem resetElement_frame : (d.resetElement e).besideModes = d.besideModes ∧ (d.resetElement e).swm = d.swm ∧
    (d.resetElement e).chg = d.chg := unoperate_frame d e

theorem releaseElement_frame : (d.releaseElement e).besideModes = d.besideModes ∧ (d.releaseElement e).swm = d.swm ∧
    (d.releaseElement e).chg = d.chg := by
  unfold Dev.releaseElement
  split
  · exact ⟨rfl, rfl, rfl⟩
  · exact resetElement_frame d e

theorem releaseElement_element (k : Fin 32) : (d.releaseElement e).element k =
    if k = e ∧ (d.element e).forced ≠ .none then { (d.element k).resetState with forced := .none } else d.element k := by
  unfold Dev.releaseElement
  split
  next free => rw [if_neg (fun h => h.2 free)]
  next forced => simp [resetElement_element, forced]

end

section
variable (d : Dev)

theorem releaseBreakers_frame : d.releaseBreakers.besideModes = d.besideModes ∧ d.releaseBreakers.prot = d.prot ∧
    d.releaseBreakers.chg = d.chg :=
  ⟨forEach_frame Dev.besideModes (fun b x => (forceBreaker_frame x b .none).1) _ d,
    forEach_frame Dev.prot (fun b x => (forceBreaker_frame x b .none).2.1) _ d,
    forEach_frame Dev.chg (fun b x => (forceBreaker_frame x b .none).2.2) _ d⟩

theorem releaseBreakers_element (e : Fin 32) : d.releaseBreakers.element e = d.element e := by
  rw [Dev.element, (releaseBreakers_frame d).2.1]
  rfl

theorem releaseElements_frame : d.releaseElements.besideModes = d.besideModes ∧ d.releaseElements.swm = d.swm ∧
    d.releaseElements.chg = d.chg :=
  ⟨forEach_frame Dev.besideModes (fun e x => (releaseElement_frame x e).1) _ d,
    forEach_frame Dev.swm (fun e x => (releaseElement_frame x e).2.1) _ d,
    forEach_frame Dev.chg (fun e x => (releaseElement_frame x e).2.2) _ d⟩

theorem releaseElements_breaker (b : Fin 24) : d.releaseElements.breaker b = d.breaker b := by
  rw [Dev.breaker, (releaseElements_frame d).2.1]
  rfl

theorem protEnterService_frame : d.protEnterService.besideModes = d.besideModes ∧ d.protEnterService.swm = d.swm ∧
    d.protEnterService.chg = d.chg :=
  ⟨forEach_frame Dev.besideModes (fun e x => (resetElement_frame x e).1) _ d,
    forEach_frame Dev.swm (fun e x => (resetElement_frame x e).2.1) _ d,
    forEach_frame Dev.chg (fun e x => (resetElement_frame x e).2.2) _ d⟩

theorem releaseBreakers_forced (b : Fin 24) : (d.releaseBreakers.breaker b).forced = .none := by
  refine forEach_reaches (f := fun b x => Dev.forceBreaker x b .none) (I := fun _ => True)
    (Q := fun x : Dev => (x.breaker b).forced = .none) (fun _ _ h => h) (fun x _ => ?_) (fun k x other h => ?_)
    (List.mem_finRange b) trivial
  · rw [forceBreaker_breaker, if_pos rfl]
  · rw [forceBreaker_breaker, if_neg other.symm]
    exact h

theorem releaseElements_forced (e : Fin 32) : (d.releaseElements.element e).forced = .none := by
  refine forEach_reaches (f := fun e x => Dev.releaseElement x e) (I := fun _ => True)
    (Q := fun x : Dev => (x.element e).forced = .none) (fun _ _ h => h) (fun x _ => ?_) (fun k x other h => ?_)
    (List.mem_finRange e) trivial
  · rw [releaseElement_element]
    split
    · rfl
    next free => simpa using free
  · rw [releaseElement_element, if_neg (fun h => other h.1.symm)]
    exact h

/-- An element that is not forced is not released. -/
theorem releaseElements_unforced {e : Fin 32} (free : (d.element e).forced = .none) :
    d.releaseElements.element e = d.element e := by
  refine forEach_keeps (fun x : Dev => x.element e = d.element e) _ _ d (fun k x h => ?_) rfl
  rw [releaseElement_element, if_neg, h]
  rintro ⟨rfl, forced⟩
  exact forced (h ▸ free)

/-- An element at rest: it neither operates nor is picked up, and its integrator is empty. -/
def ElementRec.atRest (r : ElementRec) : Prop := r.operated = false ∧ r.picked = false ∧ r.integrator = 0

theorem protEnterService_atRest (e : Fin 32) : (d.protEnterService.element e).atRest := by
  refine forEach_reaches (f := fun e x => Dev.resetElement x e) (I := fun _ => True)
    (Q := fun x : Dev => (x.element e).atRest) (fun _ _ h => h) (fun x _ => ?_) (fun k x other h => ?_)
    (List.mem_finRange e) trivial
  · rw [resetElement_element, if_pos rfl]
    exact ⟨rfl, rfl, rfl⟩
  · rw [resetElement_element, if_neg other.symm]
    exact h

theorem releaseElements_atRest {d : Dev} {e : Fin 32} (rest : (d.element e).atRest) : (d.releaseElements.element e).atRest := by
  refine forEach_keeps (fun x : Dev => (x.element e).atRest) _ _ d (fun k x h => ?_) rest
  rw [releaseElement_element]
  split
  · exact ⟨rfl, rfl, rfl⟩
  · exact h

end

/-! ## The stages of a change of mode -/

/-- The mode changed, and SERVICE entered where it is the new one (R89, R147). -/
def Dev.modeEntered (d : Dev) (m : Mode) : Dev :=
  if m = .service then ({ d with mode := m } : Dev).chgEnterService.protEnterService else { d with mode := m }

/-- TEST left where it was the old mode (R83, R96). -/
def Dev.testLeft (d : Dev) (old : Mode) : Dev := if old = .test then d.releaseBreakers.releaseElements else d

/-- SERVICE left where it was the old mode (R147). -/
def Dev.serviceLeft (d : Dev) (old : Mode) : Dev := if old = .service then d.chgLeaveService.push .meetDemand else d

theorem changeMode_eq (d : Dev) (m : Mode) : d.changeMode m = ((d.modeEntered m).testLeft d.mode).serviceLeft d.mode := rfl

theorem chgEnterService_eq (d : Dev) : d.chgEnterService =
    { d with chg := { d.chg with state := if d.chg.state = .idle then .inhibited else d.chg.state } } := by
  unfold Dev.chgEnterService
  split <;> rfl

theorem chgLeaveService_eq (d : Dev) : d.chgLeaveService =
    { d with chg := { d.chg with state := if d.chg.state = .inhibited then d.restState else d.chg.state } } := by
  unfold Dev.chgLeaveService
  split <;> rfl

section
variable (d : Dev) (m old : Mode)

theorem modeEntered_besideModes : (d.modeEntered m).besideModes = { d.besideModes with mode := m } := by
  unfold Dev.modeEntered
  split
  · rw [(protEnterService_frame _).1, chgEnterService_eq]
    rfl
  · rfl

theorem testLeft_frame : (d.testLeft old).besideModes = d.besideModes ∧ (d.testLeft old).chg = d.chg := by
  unfold Dev.testLeft
  split
  · rw [(releaseElements_frame _).1, (releaseElements_frame _).2.2]
    exact ⟨(releaseBreakers_frame d).1, (releaseBreakers_frame d).2.2⟩
  · exact ⟨rfl, rfl⟩

theorem serviceLeft_frame : (d.serviceLeft old).besideModes = d.besideModes ∧ (d.serviceLeft old).swm = d.swm ∧
    (d.serviceLeft old).prot = d.prot := by
  unfold Dev.serviceLeft
  split
  · rw [chgLeaveService_eq]
    exact ⟨rfl, rfl, rfl⟩
  · exact ⟨rfl, rfl, rfl⟩

theorem changeMode_besideModes : (d.changeMode m).besideModes = { d.besideModes with mode := m } := by
  rw [changeMode_eq, (serviceLeft_frame _ _).1, (testLeft_frame _ _).1, modeEntered_besideModes]

theorem changeMode_element (e : Fin 32) : (d.changeMode m).element e = ((d.modeEntered m).testLeft d.mode).element e := by
  rw [changeMode_eq, Dev.element, (serviceLeft_frame _ _).2.2]
  rfl

theorem changeMode_breaker (b : Fin 24) : (d.changeMode m).breaker b = ((d.modeEntered m).testLeft d.mode).breaker b := by
  rw [changeMode_eq, Dev.breaker, (serviceLeft_frame _ _).2.1]
  rfl

/-- A change out of TEST releases every forcing (R83, R96). -/
theorem changeMode_releases (test : d.mode = .test) :
    (∀ b, ((d.changeMode m).breaker b).forced = .none) ∧ ∀ e, ((d.changeMode m).element e).forced = .none := by
  refine ⟨fun b => ?_, fun e => ?_⟩
  · rw [changeMode_breaker, Dev.testLeft, if_pos test, releaseElements_breaker]
    exact releaseBreakers_forced _ b
  · rw [changeMode_element, Dev.testLeft, if_pos test]
    exact releaseElements_forced _ e

/-- A change into SERVICE resets every element (R89). -/
theorem changeMode_atRest (e : Fin 32) : ((d.changeMode .service).element e).atRest := by
  have entered : ((d.modeEntered .service).element e).atRest := by
    rw [Dev.modeEntered, if_pos rfl]
    exact protEnterService_atRest _ e
  rw [changeMode_element, Dev.testLeft]
  split
  · refine releaseElements_atRest ?_
    rw [releaseBreakers_element]
    exact entered
  · exact entered

/-- A change into SERVICE takes an IDLE CHG to INHIBITED (R147). -/
theorem changeMode_inhibits (new : d.mode ≠ .service) (idle : d.chg.state = .idle) :
    (d.changeMode .service).chg.state = .inhibited := by
  rw [changeMode_eq, Dev.serviceLeft, if_neg new, (testLeft_frame _ _).2, Dev.modeEntered, if_pos rfl,
    (protEnterService_frame _).2.2, chgEnterService_eq]
  exact if_pos idle

/-- A change out of SERVICE takes CHG to IDLE where its flag does not inhibit it (R147). -/
theorem changeMode_rests (old : d.mode = .service) (new : m ≠ .service) (state : d.chg.state = .inhibited)
    (free : d.chg.inhibit = false) : (d.changeMode m).chg.state = .idle := by
  have entered : d.modeEntered m = { d with mode := m } := if_neg new
  have stays : (d.modeEntered m).testLeft d.mode = { d with mode := m } := by rw [entered, Dev.testLeft, old]; rfl
  rw [changeMode_eq, stays, Dev.serviceLeft, if_pos old, chgLeaveService_eq]
  show (if d.chg.state = .inhibited then _ else _) = _
  rw [if_pos state]
  simp [Dev.restState, free, new]

/-- Any other change leaves PROT alone. -/
theorem changeMode_prot (old : d.mode ≠ .test) (new : m ≠ .service) : (d.changeMode m).prot = d.prot := by
  rw [changeMode_eq, (serviceLeft_frame _ _).2.2, Dev.testLeft, if_neg old, Dev.modeEntered, if_neg new]

end

/-! ## OPERATE MODE -/

theorem modeBusy_iff (d : Dev) (m : Mode) : d.modeBusy m = true ↔
    (∃ b, (d.breaker b).record.isSome = true) ∨ d.chg.state = .running ∨ d.chg.overlap.isSome = true ∨
      (m = .service ∧ ∃ g, (d.gen g).state ≠ .stopped ∧ (d.gen g).state ≠ .failed) := by
  simp [Dev.modeBusy, Dev.chgBusy, Dev.allSetsIdle, or_assoc]

theorem modeOf_of_le {n : Nat} (known : n ≤ 2) :
    modeOf n = some (if n = 0 then Mode.inService else if n = 1 then .test else .service) := by
  interval_cases n <;> rfl

theorem modeOf_of_gt {n : Nat} (unknown : 2 < n) : modeOf n = none := by
  simp [modeOf, show n ≠ 0 by omega, show n ≠ 1 by omega, show n ≠ 2 by omega]

section
variable (d : Dev) {n : Nat} {m : Mode}

theorem opMode_invalid (unknown : 2 < n) : d.opMode n = (refuse resInvalid, d) := by
  rw [Dev.opMode, modeOf_of_gt unknown]

theorem opMode_same (names : modeOf n = some m) (same : m = d.mode) : d.opMode n = (refuse resOk, d) := by
  rw [Dev.opMode, names]
  exact if_pos same

theorem opMode_busy (names : modeOf n = some m) (new : m ≠ d.mode) (busy : d.modeBusy m = true) :
    d.opMode n = (refuse resBusy, d) := by
  rw [Dev.opMode, names]
  exact (if_neg new).trans (if_pos busy)

theorem opMode_changes (names : modeOf n = some m) (new : m ≠ d.mode) (free : ¬ d.modeBusy m = true) :
    d.opMode n = (refuse resOk, d.changeMode m) := by
  rw [Dev.opMode, names]
  exact (if_neg new).trans (if_neg free)

end

/-- Settles O42: a change's stages keep all but SWM, PROT and CHG, and each of these takes its part. -/
theorem modeChanges : Obligations.ModeChanges := by
  intro s q rest n operates d
  have bare : d = { s.dev with mgt := d.mgt } := taking_eq s.dev q rest
  have quiet : d.work = [] := operates.serves.work
  refine ⟨fun unknown => operates.exec_quiet rfl (opMode_invalid d unknown) quiet, fun m called known => ?_⟩
  have names : modeOf n = some m := called ▸ modeOf_of_le known
  have mode : d.mode = s.dev.mode := by rw [bare]
  have prot : d.prot = s.dev.prot := by rw [bare]
  have chg : d.chg = s.dev.chg := by rw [bare]
  intro busy
  have decides : d.modeBusy m = true ↔ busy := by
    rw [bare]
    exact modeBusy_iff s.dev m
  rw [← mode, ← prot, ← chg]
  refine ⟨fun same => operates.exec_quiet rfl (opMode_same d names same) quiet,
    fun new held => operates.exec_quiet rfl (opMode_busy d names new (decides.mpr held)) quiet, fun new free => ?_⟩
  have acts := opMode_changes d names new (mt decides.mp free)
  have frame : ((d.changeMode m).mode, (d.changeMode m).tab, (d.changeMode m).meas, (d.changeMode m).sau, (d.changeMode m).par) =
      (m, d.tab, d.meas, d.sau, d.par) :=
    congrArg (fun v : Dev => (v.mode, v.tab, v.meas, v.sau, v.par)) (a₁ := (d.changeMode m).besideModes)
      (a₂ := { d.besideModes with mode := m }) (changeMode_besideModes d m)
  have taken : (d.tab, d.meas, d.sau, d.par) = (s.dev.tab, s.dev.meas, s.dev.sau, s.dev.par) := by rw [bare]
  simp only [Prod.mk.injEq] at frame taken
  obtain ⟨changed, tab, meas, sau, par⟩ := frame
  obtain ⟨tab', meas', sau', par'⟩ := taken
  refine ⟨d.changeMode m, (operates.exec_eq rfl).trans (by rw [acts]; rfl), changed, tab.trans tab', meas.trans meas',
    sau.trans sau', par.trans par', changeMode_releases d m, ?_, fun old => changeMode_rests d m old (old ▸ new), changeMode_prot d m⟩
  rintro rfl
  exact ⟨changeMode_atRest d, changeMode_inhibits d new.symm⟩

end Sys2Proof.Machine

/-!
FORCE of one object and FORCE_CLEAR_ALL (O40).
-/
namespace Sys2Proof.Machine

/-! ## What the fixed part says of forcing -/

theorem element_of_fixed {d x : Dev} (h : d.fixed = x.fixed) (e : Fin 32) : d.element e = x.element e :=
  congrArg (fun v : Fixed => tget v.prot.elements e) h

theorem forced_of_fixed {d x : Dev} (h : d.fixed = x.fixed) (b : Fin 24) : (d.breaker b).forced = (x.breaker b).forced :=
  congrArg (fun v : Fixed => (v.breakers b).2.1) h

/-! ## Elements forced (R82) -/

section
variable (d : Dev) (e : Fin 32)

theorem forceOperated_again (already : (d.element e).forced = .operated) : d.forceOperated e = d := if_pos already

/-- The record of an element that is forced to operate, before it counts an operation. -/
def ElementRec.forceUp (r : ElementRec) : ElementRec :=
  { r with forced := .operated, picked := true, phase := if r.picked then r.phase else .none }

theorem forceOperated_element (new : (d.element e).forced ≠ .operated) (k : Fin 32) : (d.forceOperated e).element k =
    if k = e then (if (d.element k).operated then (d.element k).forceUp else (d.element k).forceUp.operate) else d.element k := by
  have up (k : Fin 32) : (d.modElement e ElementRec.forceUp).element k = if k = e then (d.element k).forceUp else d.element k :=
    Dev.modElement_element d e k _
  have turn : d.forceOperated e = if (d.element e).operated then d.modElement e ElementRec.forceUp
      else (d.modElement e ElementRec.forceUp).operateElement e := if_neg new
  rw [turn]
  by_cases same : k = e
  · subst same
    rw [if_pos rfl]
    split
    · rw [up, if_pos rfl]
    · rw [operateElement_element, if_pos rfl, up, if_pos rfl]
  · rw [if_neg same]
    split
    · rw [up, if_neg same]
    · rw [operateElement_element, if_neg same, up, if_neg same]

theorem forceBlocked_again (already : (d.element e).forced = .blocked) : d.forceBlocked e = d := if_pos already

theorem forceBlocked_element (new : (d.element e).forced ≠ .blocked) (k : Fin 32) : (d.forceBlocked e).element k =
    if k = e then { d.element k with operated := false, forced := .blocked, picked := false, phase := .none } else d.element k := by
  rw [Dev.forceBlocked, if_neg new, Dev.modElement_element, unoperate_element]
  split <;> rfl

/-- The forced state that a FORCE code leaves an element in (R82). -/
def ElementRec.forcedBy (r : ElementRec) : Nat → ForcedElement
  | 0 => r.forced
  | 1 => .none
  | 4 => .operated
  | _ => .blocked

/-- A FORCE code changes its own element only. -/
theorem forceElementCode_other (code : Nat) {k : Fin 32} (other : k ≠ e) : (d.forceElementCode e code).element k = d.element k := by
  unfold Dev.forceElementCode
  split
  · rw [releaseElement_element, if_neg (fun h => other h.1)]
  · by_cases already : (d.element e).forced = .operated
    · rw [forceOperated_again d e already]
    · rw [forceOperated_element d e already, if_neg other]
  · by_cases already : (d.element e).forced = .blocked
    · rw [forceBlocked_again d e already]
    · rw [forceBlocked_element d e already, if_neg other]
  · rfl

theorem forceElementCode_forced {code : Nat} (known : code ∈ [0, 1, 4, 5]) :
    ((d.forceElementCode e code).element e).forced = (d.element e).forcedBy code := by
  simp only [List.mem_cons, List.not_mem_nil, or_false] at known
  rcases known with rfl | rfl | rfl | rfl
  · rfl
  · show ((d.releaseElement e).element e).forced = .none
    rw [releaseElement_element]
    split
    · rfl
    next free => simpa using free
  · show ((d.forceOperated e).element e).forced = .operated
    by_cases already : (d.element e).forced = .operated
    · rw [forceOperated_again d e already, already]
    · rw [forceOperated_element d e already, if_pos rfl]
      split <;> rfl
  · show ((d.forceBlocked e).element e).forced = .blocked
    by_cases already : (d.element e).forced = .blocked
    · rw [forceBlocked_again d e already, already]
    · rw [forceBlocked_element d e already, if_pos rfl]

theorem forceOperated_operated (new : (d.element e).forced ≠ .operated) : ((d.forceOperated e).element e).operated = true := by
  rw [forceOperated_element d e new, if_pos rfl]
  split
  next up => exact up
  · rfl

theorem forceBlocked_operated (new : (d.element e).forced ≠ .blocked) : ((d.forceBlocked e).element e).operated = false := by
  rw [forceBlocked_element d e new, if_pos rfl]

end

/-! ## Breakers forced (R96) -/

/-- The overlay that a FORCE code leaves a breaker with (R96). -/
def BreakerRec.forcedBy (r : BreakerRec) : Nat → ForcedBreaker
  | 0 => r.forced
  | 1 => .none
  | 2 => .openPos
  | _ => .closed

section
variable (d : Dev) (b : Fin 24)

theorem forceBreakerCode_prot (code : Nat) : (d.forceBreakerCode b code).prot = d.prot := by
  unfold Dev.forceBreakerCode
  split
  · exact (forceBreaker_frame d b _).2.1
  · exact (forceBreaker_frame d b _).2.1
  · exact (forceBreaker_frame d b _).2.1
  · rfl

theorem forceBreakerCode_forced {code : Nat} (known : code ≤ 3) (k : Fin 24) : ((d.forceBreakerCode b code).breaker k).forced =
    if k = b then (d.breaker k).forcedBy code else (d.breaker k).forced := by
  have forced (o : ForcedBreaker) : ((d.forceBreaker b o).breaker k).forced = if k = b then o else (d.breaker k).forced := by
    rw [forceBreaker_breaker]
    split <;> rfl
  interval_cases code
  · exact (ite_self _).symm
  · exact forced .none
  · exact forced .openPos
  · exact forced .closed

end

/-! ## FORCE -/

theorem field_drop (bs : List Byte) (n o w : Nat) : field (bs.drop n) o w = field bs (n + o) w := by
  unfold field slice
  rw [List.drop_drop]

/-- The one item of a FORCE of a single object. -/
def Request.forceItem (q : Request) : ForceItem := (field q.params 1 1, field q.params 2 1, field q.params 3 1)

theorem forceItems_one (q : Request) : forceItems 1 (q.params.drop 1) = [q.forceItem] := by
  simp only [forceItems, field_drop, Request.forceItem]

section
variable {d : Dev} {q : Request}

theorem actForce_one (one : field q.params 0 1 = 1) (length : q.params.length = 4) (mode : d.mode = .test) (mgw : d.mgw = true)
    (forcible : d.forcible q.forceItem = true) : d.actForce q = (refuse resOk, d.applyForce q.forceItem) := by
  unfold Dev.actForce
  dsimp only
  rw [one, forceItems_one]
  simp [length, mode, mgw, forcible]

theorem actForce_notWritable (length : q.params.length = 1 + 3 * field q.params 0 1) (mode : d.mode ≠ .test) :
    d.actForce q = (refuse resNotWritable, d) := by
  simp [Dev.actForce, length, mode]

theorem actForce_disabled (length : q.params.length = 1 + 3 * field q.params 0 1) (mode : d.mode = .test) (mgw : d.mgw = false) :
    d.actForce q = (refuse resWriteDisabled, d) := by
  simp [Dev.actForce, length, mode, mgw]

theorem applyForce_breaker (b : Fin 24) (kind : field q.params 1 1 = 0) (object : field q.params 2 1 = b.val) :
    d.applyForce q.forceItem = (d.forceBreakerCode b (field q.params 3 1)).flush := by
  simp [Dev.applyForce, Request.forceItem, kind, object]

theorem applyForce_element (e : Fin 32) (kind : field q.params 1 1 = 1) (object : field q.params 2 1 = e.val) :
    d.applyForce q.forceItem = (d.forceElementCode e (field q.params 3 1)).flush := by
  simp [Dev.applyForce, Request.forceItem, kind, object]

theorem forcible_breaker (b : Fin 24) (kind : field q.params 1 1 = 0) (object : field q.params 2 1 = b.val)
    (code : field q.params 3 1 ≤ 3) : d.forcible q.forceItem = true := by
  simp [Dev.forcible, Request.forceItem, kind, object, code]

theorem forcible_element (e : Fin 32) (kind : field q.params 1 1 = 1) (object : field q.params 2 1 = e.val)
    (enabled : (d.elementCfg e).enable = 1) (code : field q.params 3 1 ∈ [0, 1, 4, 5]) : d.forcible q.forceItem = true := by
  simpa [Dev.forcible, Request.forceItem, kind, object, enabled] using code

end

section
variable {s : State} {q : Request} {rest : List Request} {row : Nat × Nat}

/-- After an action, the reports it leaves and the response keep the fixed part as the action left it. -/
theorem State.serves.exec_fixed (h : s.serves q rest row) {c : Instr} {act : Dev → Request → Response × Dev}
    (meaning : exec c s = s.whenRunning (fun d => d.serveRow row act)) {r : Response} {x : Dev}
    (acts : act (s.dev.taking q rest) q = (r, x)) :
    ∃ t, exec c s = .next t ∧ t.nv = s.nv ∧ t.dev.fixed = x.fixed := by
  refine ⟨s.withDev (x.flush.respond q r), ?_, rfl, (respond_fixed _ q r).trans (flush_fixed x)⟩
  rw [meaning, State.whenRunning_eq h.running, h.serveRow, acts]

/-- An action that reports nothing is answered at once. -/
theorem State.serves.exec_quiet (h : s.serves q rest row) {c : Instr} {act : Dev → Request → Response × Dev}
    (meaning : exec c s = s.whenRunning (fun d => d.serveRow row act)) {r : Response}
    (acts : act (s.dev.taking q rest) q = (r, s.dev.taking q rest)) :
    exec c s = .next (s.withDev ((s.dev.taking q rest).respond q r)) := by
  rw [meaning, State.whenRunning_eq h.running, h.serveRow, acts]
  dsimp only
  rw [Dev.flush_of_no_work _ h.work]

end

/-- Settles O40: a single item reaches its breaker or its element, and a release all of both; the reports change no forcing. -/
theorem forcingTakesEffect : Obligations.ForcingTakesEffect := by
  intro s q rest n serves d
  have bare : d = { s.dev with mgt := d.mgt } := taking_eq s.dev q rest
  have mode : d.mode = s.dev.mode := by rw [bare]
  have mgw : d.mgw = s.dev.mgw := by rw [bare]
  have breaker (b : Fin 24) : d.breaker b = s.dev.breaker b := by rw [bare]; rfl
  have element (e : Fin 32) : d.element e = s.dev.element e := by rw [bare]; rfl
  have entry (e : Fin 32) : d.elementCfg e = s.dev.elementCfg e := by rw [bare]; rfl
  simp only [← mode, ← mgw, ← breaker, ← element, ← entry]
  refine ⟨?_, ?_, ?_, ?_⟩
  · rintro rfl one length test asserted
    refine ⟨fun b kind object code => ?_, fun e kind object enabled code => ?_⟩
    · have acts := actForce_one one length test asserted (forcible_breaker b kind object code)
      rw [applyForce_breaker b kind object] at acts
      obtain ⟨t, next, nv, fixed⟩ := serves.exec_fixed (c := .force) rfl acts
      rw [flush_fixed] at fixed
      refine ⟨t, next, nv, fun e => ?_, fun x other => ?_, ?_⟩
      · rw [element_of_fixed fixed, Dev.element, forceBreakerCode_prot]
        rfl
      · rw [forced_of_fixed fixed, forceBreakerCode_forced d b code, if_neg other]
      · rw [forced_of_fixed fixed, forceBreakerCode_forced d b code, if_pos rfl]
        rfl
    · have acts := actForce_one one length test asserted (forcible_element e kind object enabled code)
      rw [applyForce_element e kind object] at acts
      obtain ⟨t, next, nv, fixed⟩ := serves.exec_fixed (c := .force) rfl acts
      rw [flush_fixed] at fixed
      refine ⟨t, next, nv, fun x other => ?_, ?_, fun five new => ?_, fun four new => ?_⟩
      · rw [element_of_fixed fixed, forceElementCode_other d e _ other]
      · rw [element_of_fixed fixed, forceElementCode_forced d e code]
        rfl
      · rw [element_of_fixed fixed, five]
        exact forceBlocked_operated d e new
      · rw [element_of_fixed fixed, four]
        exact forceOperated_operated d e new
  · rintro rfl length other
    exact serves.exec_quiet rfl (actForce_notWritable length other)
  · rintro rfl length test withheld
    exact serves.exec_quiet rfl (actForce_disabled length test withheld)
  · rintro rfl
    obtain ⟨t, next, nv, fixed⟩ := serves.exec_fixed (c := .forceClearAll) (act := Dev.actForceClear) rfl rfl
    refine ⟨t, next, nv, fun b => ?_, fun e => ?_, fun e free => ?_⟩
    · rw [forced_of_fixed fixed, releaseElements_breaker]
      exact releaseBreakers_forced _ b
    · rw [element_of_fixed fixed]
      exact releaseElements_forced _ e
    · rw [element_of_fixed fixed, releaseElements_unforced _ (by rw [releaseBreakers_element]; exact free),
        releaseBreakers_element]

end Sys2Proof.Machine

/-!
The end of a state store write (O33), and the ages of a breaker's status and of a controller's report that expire (O22).
-/
namespace Sys2Proof.Machine

/-! ## State store writes -/

/-- The device with its oldest state store write no longer waiting (R205). -/
def Dev.jobTaken (d : Dev) (js : List StoreJob) : Dev := { d with swm := { d.swm with jobs := js } }

theorem completeJob_none {s : State} (none : s.dev.swm.jobs = []) (ok : Bool) : s.completeJob ok = s := by
  simp only [State.completeJob, none]

theorem completeJob_success {s : State} {j : StoreJob} {js : List StoreJob} (oldest : s.dev.swm.jobs = j :: js) :
    s.completeJob true = { s with nv := s.nv.store j, dev := s.dev.jobTaken js } := by
  simp only [State.completeJob, oldest, if_true]
  rfl

theorem completeJob_failure {s : State} {j : StoreJob} {js : List StoreJob} (oldest : s.dev.swm.jobs = j :: js) :
    s.completeJob false = s.withDev ((s.dev.jobTaken js).recordError .storeFault j.area).flush := by
  simp only [State.completeJob, oldest, Bool.false_eq_true, if_false]
  rfl

theorem exec_stateStoreComplete {s : State} (run : s.power = .running) (ok : Bool) :
    exec (.stateStoreComplete ok) s = .next (s.completeJob ok) := if_pos run

/-- Settles O33: the head of the store writes reaches the store, or its area's fault is recorded, which reports nothing. -/
theorem stateStoreWriteEnds : Obligations.StateStoreWriteEnds := by
  intro s ok run
  refine ⟨fun none => ?_, fun j js oldest => ⟨?_, ?_⟩⟩
  · rw [exec_stateStoreComplete run, completeJob_none none]
  · rintro rfl
    rw [exec_stateStoreComplete run, completeJob_success oldest]
    cases j <;> rfl
  · rintro rfl - quiet
    have bare := bare_recordError (s.dev.jobTaken js) .storeFault j.area
    have still : ((s.dev.jobTaken js).recordError .storeFault j.area).work = [] := (work_of_bare bare).trans quiet
    have listed : errorListed ((s.dev.jobTaken js).recordError .storeFault j.area).mgt.errors .storeFault j.area = true :=
      recordError_listed (.inl rfl) _
    refine ⟨_, (exec_stateStoreComplete run false).trans (congrArg _ (completeJob_failure oldest)), rfl, ?_, ?_, ?_⟩
    · rw [Dev.flush_of_no_work _ still]
      exact (tab_of_shell (shell_of_bare bare) :)
    · rw [Dev.flush_of_no_work _ still]
      exact swm_of_bare bare
    · rw [Dev.flush_of_no_work _ still]
      cases j <;> exact listed

/-! ## Ages -/

theorem report_of_fixed {d x : Dev} (h : d.fixed = x.fixed) (b : Fin 24) : (d.breaker b).report = (x.breaker b).report :=
  congrFun (congrArg Fixed.breakers h) b

theorem genReport_of_fixed {d x : Dev} (h : d.fixed = x.fixed) (g : Fin 6) : (d.gen g).report = (x.gen g).report :=
  congrFun (congrArg Fixed.gens h) g

theorem meas_of_fixed {d x : Dev} (h : d.fixed = x.fixed) : d.meas = x.meas := congrArg Fixed.meas h

/-- A breaker's record once its status age has run out (R95). -/
def BreakerRec.aging (r : BreakerRec) : BreakerRec := { r with reported := .unknown, aged := true }

/-- A set's record once its controller's age has run out (R155). -/
def GenRec.aging (r : GenRec) : GenRec := { r with engine := .unknown, ready := false, aged := true }

theorem expireStatusAge_due {d : Dev} {b : Fin 24} (fresh : (d.breaker b).aged = false)
    (due : reached (after (d.breaker b).ageFrom 3000) d.now = true) :
    d.expireStatusAge b = d.updateBreaker b BreakerRec.aging := if_pos (by rw [fresh]; exact due)

/-- Apart from the breaker's own report, an expired status age leaves the fixed part alone, whatever it reports. -/
theorem updateBreaker_fixed (d : Dev) (b : Fin 24) (f : BreakerRec → BreakerRec) :
    (d.updateBreaker b f).fixed = (d.modBreaker b f).fixed := by
  unfold Dev.updateBreaker
  dsimp only
  split <;> rfl

theorem expireControllerAge_due {d : Dev} {g : Fin 6} (fresh : (d.gen g).aged = false)
    (due : reached (after (d.gen g).ageFrom 2000) d.now = true) :
    d.expireControllerAge g =
      if d.par.settled then (d.modGen g GenRec.aging).judgeGen g false false else d.modGen g GenRec.aging :=
  if_pos (by rw [fresh]; exact due)

/-- Apart from the controller's report itself, an expired controller age leaves the fixed part alone. -/
theorem expireControllerAge_fixed {d : Dev} {g : Fin 6} (fresh : (d.gen g).aged = false)
    (due : reached (after (d.gen g).ageFrom 2000) d.now = true) :
    (d.expireControllerAge g).fixed = (d.modGen g GenRec.aging).fixed := by
  rw [expireControllerAge_due fresh due]
  split
  · exact (fixed_reports _).toInner.judgeGen g false false rfl
  · rfl

/-- Settles O22: the age changes one report of `Dev.fixed`, and what is then taken of it changes no more. -/
theorem agesExpire : Obligations.AgesExpire := by
  refine ⟨fun s b run fresh due => ?_, fun s g run fresh due => ?_⟩
  · have ran : exec (.statusAgeExpiry b) s = .next (s.withDev (s.dev.expireStatusAge b).flush) :=
      State.whenRunning_eq run (fun d => (d.expireStatusAge b).flush)
    have fixed : (s.dev.expireStatusAge b).flush.fixed = (s.dev.modBreaker b BreakerRec.aging).fixed := by
      rw [flush_fixed, expireStatusAge_due fresh due, updateBreaker_fixed]
    have own := report_of_fixed fixed b
    rw [Dev.modBreaker_breaker_same] at own
    simp only [BreakerRec.report, BreakerRec.aging, Prod.mk.injEq] at own
    obtain ⟨reported, -, inLocal, spring, -, aged, -⟩ := own
    refine ⟨_, ran, rfl, reported, aged, spring, inLocal, fun x other => ?_, (meas_of_fixed fixed :)⟩
    have same := report_of_fixed fixed x
    rw [Dev.modBreaker_breaker_ne _ _ _ _ other] at same
    exact congrArg Prod.fst same
  · have ran : exec (.controllerAgeExpiry g) s = .next (s.withDev (s.dev.expireControllerAge g).flush) :=
      State.whenRunning_eq run (fun d => (d.expireControllerAge g).flush)
    have fixed : (s.dev.expireControllerAge g).flush.fixed = (s.dev.modGen g GenRec.aging).fixed :=
      (flush_fixed _).trans (expireControllerAge_fixed fresh due)
    have own := genReport_of_fixed fixed g
    rw [Dev.modGen_gen_same] at own
    simp only [GenRec.report, GenRec.aging, Prod.mk.injEq] at own
    obtain ⟨engine, ready, manual, -, aged⟩ := own
    refine ⟨_, ran, rfl, engine, ready, aged, manual, fun x other => ?_, (meas_of_fixed fixed :)⟩
    have same := genReport_of_fixed fixed x
    rw [Dev.modGen_gen_ne _ _ _ _ other] at same
    simp only [GenRec.report, Prod.mk.injEq] at same
    obtain ⟨engine, -, -, -, aged⟩ := same
    exact ⟨engine, aged⟩

end Sys2Proof.Machine

/-!
Commands that are not due (O20): what each of them does where `Dev.due` does not hold it.
-/
namespace Sys2Proof.Machine

/-! ## What is due -/

theorem mem_dueIf {b : Bool} {c x : Instr} : c ∈ dueIf b x ↔ b = true ∧ c = x := by cases b <;> simp [dueIf]

section
variable {d : Dev} {c : Instr}

/-- The commands due are those of the blocks' clocks and of MGT. -/
theorem mem_due : c ∈ d.due ↔ c ∈ dueIf (reached? d.sau.silence d.now) .silenceTimeout ∨ (∃ b, c ∈ d.dueBreaker b) ∨
    c ∈ d.dueChg ∨ (∃ g, c ∈ d.dueGen g) ∨ c ∈ dueIf (d.par.settled && reached d.par.periodDue d.now) .setpointPeriod ∨
    c ∈ d.dueMgt := by
  simp [Dev.due]

theorem mem_due_breaker {b : Fin 24} (h : c ∈ d.dueBreaker b) : c ∈ d.due := mem_due.mpr (.inr (.inl ⟨b, h⟩))
theorem mem_due_chg (h : c ∈ d.dueChg) : c ∈ d.due := mem_due.mpr (.inr (.inr (.inl h)))
theorem mem_due_gen {g : Fin 6} (h : c ∈ d.dueGen g) : c ∈ d.due := mem_due.mpr (.inr (.inr (.inr (.inl ⟨g, h⟩))))
theorem mem_due_mgt (h : c ∈ d.dueMgt) : c ∈ d.due := mem_due.mpr (.inr (.inr (.inr (.inr (.inr h)))))

end

/-! ## Timers of SAU, SWM and PAR -/

section
variable {d : Dev} {b : Fin 24} {g : Fin 6}

theorem expireSilence_notDue (notDue : .silenceTimeout ∉ d.due) : d.expireSilence = d :=
  if_neg fun due => notDue (mem_due.mpr (.inl (mem_dueIf.mpr ⟨due, rfl⟩)))

theorem expireStatusAge_notDue (notDue : .statusAgeExpiry b ∉ d.due) : d.expireStatusAge b = d :=
  if_neg fun due => notDue (mem_due_breaker (b := b)
    (by simp only [Dev.dueBreaker, List.mem_append, mem_dueIf, due, true_and, true_or]))

theorem commandRepeat_notDue (notDue : .commandRepeat b ∉ d.due) : d.commandRepeat b = d := by
  unfold Dev.commandRepeat
  split
  · rfl
  next r record => exact if_neg fun due => notDue (mem_due_breaker (b := b) (by simp [Dev.dueBreaker, mem_dueIf, record, due]))

theorem expireOperate_notDue (notDue : .operateTimerExpiry b ∉ d.due) : d.expireOperate b = d := by
  unfold Dev.expireOperate
  split
  · rfl
  next r record => exact if_neg fun due => notDue (mem_due_breaker (b := b) (by simp [Dev.dueBreaker, mem_dueIf, record, due]))

theorem expireBreakerFailure_notDue (notDue : .breakerFailureTimerExpiry b ∉ d.due) : d.expireBreakerFailure b = d := by
  unfold Dev.expireBreakerFailure
  split
  · rfl
  next r record =>
    refine if_neg fun due => notDue (mem_due_breaker (b := b) ?_)
    simp only [Dev.dueBreaker, List.mem_append, mem_dueIf, record, Option.any_some, due, true_and, true_or, or_true]

theorem expireControllerAge_notDue (notDue : .controllerAgeExpiry g ∉ d.due) : d.expireControllerAge g = d :=
  if_neg fun due => notDue (mem_due_gen (g := g)
    (by simp only [Dev.dueGen, List.mem_append, mem_dueIf, due, true_and, true_or]))

theorem expireStart_notDue (notDue : .startTimerExpiry g ∉ d.due) : d.expireStart g = d :=
  if_neg fun due => notDue (mem_due_gen (g := g)
    (by simp only [Dev.dueGen, List.mem_append, mem_dueIf, due, true_and, true_or, or_true]))

theorem expireSync_notDue (notDue : .syncTimerExpiry g ∉ d.due) : d.expireSync g = d :=
  if_neg fun due => notDue (mem_due_gen (g := g)
    (by simp only [Dev.dueGen, List.mem_append, mem_dueIf, due, true_and, true_or, or_true]))

theorem expireCooldown_notDue (notDue : .cooldownTimerExpiry g ∉ d.due) : d.expireCooldown g = d :=
  if_neg fun due => notDue (mem_due_gen (g := g)
    (by simp only [Dev.dueGen, List.mem_append, mem_dueIf, due, true_and, or_true]))

theorem setpointPeriod_notDue (notDue : .setpointPeriod ∉ d.due) : d.setpointPeriod = d :=
  if_neg fun due => notDue (mem_due.mpr (.inr (.inr (.inr (.inr (.inl (mem_dueIf.mpr ⟨due, rfl⟩)))))))

end

/-! ## Timers of CHG -/

section
variable {d : Dev}

theorem expireSourceTimer_notDue {u : Utility} (notDue : .sourceTimerExpiry u ∉ d.due) : d.expireSourceTimer u = d := by
  unfold Dev.expireSourceTimer
  split
  next loss e timer =>
    refine if_neg fun due => notDue (mem_due_chg ?_)
    have sourceDue : d.sourceDue u = true := by simp only [Dev.sourceDue, timer, due]
    cases u <;> simp only [Dev.dueChg, List.mem_append, mem_dueIf, sourceDue, true_and, true_or, or_true]
  · rfl

theorem expireStepWait_notDue (notDue : .stepWaitExpiry ∉ d.due) : d.expireStepWait = d := by
  unfold Dev.expireStepWait
  split
  next t running =>
    refine if_neg fun due => notDue (mem_due_chg ?_)
    simp only [Dev.dueChg, List.mem_append, mem_dueIf, running, Option.any_some, due, true_and, true_or, or_true]
  · rfl

theorem expireStepSync_notDue (notDue : .stepSyncTimeout ∉ d.due) : d.expireStepSync = d := by
  unfold Dev.expireStepSync
  split
  next t running =>
    refine if_neg fun due => notDue (mem_due_chg ?_)
    simp only [Dev.dueChg, List.mem_append, mem_dueIf, running, Option.any_some, due, true_and, true_or, or_true]
  · rfl

theorem expireAwait_notDue (notDue : .awaitDeadline ∉ d.due) : d.expireAwait = d := by
  unfold Dev.expireAwait
  split
  next t running =>
    refine if_neg fun due => notDue (mem_due_chg ?_)
    simp only [Dev.dueChg, List.mem_append, mem_dueIf, running, Option.any_some, due, true_and, true_or, or_true]
  · rfl

theorem expireDelay_notDue (notDue : .delayDeadline ∉ d.due) : d.expireDelay = d := by
  unfold Dev.expireDelay
  split
  next t running =>
    refine if_neg fun due => notDue (mem_due_chg ?_)
    simp only [Dev.dueChg, List.mem_append, mem_dueIf, running, Option.any_some, due, true_and, true_or, or_true]
  · rfl

theorem expireOverlap_notDue (notDue : .overlapTimerExpiry ∉ d.due) : d.expireOverlap = d := by
  unfold Dev.expireOverlap
  split
  next o overlap =>
    refine if_neg fun due => notDue (mem_due_chg ?_)
    simp only [Dev.dueChg, List.mem_append, mem_dueIf, overlap, Option.any_some, due, true_and, true_or, or_true]
  · rfl

theorem endSettling_notDue (notDue : .settlingEnd ∉ d.due) : d.endSettling = d :=
  if_neg fun due => notDue (mem_due_chg (by simp only [Dev.dueChg, List.mem_append, mem_dueIf, due, true_and, or_true]))

end

/-! ## MGT -/

section
variable {d : Dev} {s : State} {row : Nat × Nat}

theorem expireSelection_notDue (notDue : .selectionTimeout ∉ d.due) : d.expireSelection = d := by
  unfold Dev.expireSelection
  split
  next x selection =>
    refine if_neg fun due => notDue (mem_due_mgt ?_)
    simp only [Dev.dueMgt, List.mem_append, mem_dueIf, selection, Option.any_some, due, true_and, true_or]
  · rfl

theorem restartDue_notDue (notDue : .restartReset ∉ d.due) : d.mgt.restartDue = false :=
  Bool.eq_false_iff.mpr fun due => notDue (mem_due_mgt
    (by simp only [Dev.dueMgt, List.mem_append, mem_dueIf, due, true_and, true_or, or_true]))

/-- A row whose command is not due finds no request of its own to take into service. -/
theorem enterService_notDue (notDue : rowCommand row ∉ d.due) : d.enterService row = none := by
  unfold Dev.enterService
  split
  next q rest service queue =>
    refine if_neg fun own => notDue (mem_due_mgt ?_)
    rw [← own]
    simp [Dev.dueMgt, service, queue]
  · rfl

theorem serveRow_notDue (notDue : rowCommand row ∉ d.due) (act : Dev → Request → Response × Dev) : d.serveRow row act = d := by
  simp only [Dev.serveRow, enterService_notDue notDue]

theorem serveWrite_notDue (notDue : .write ∉ d.due) : d.serveWrite = d := by
  simp only [Dev.serveWrite, enterService_notDue (row := (4, 0)) notDue]

/-! ## Commands -/

theorem State.whenRunning_self {f : Dev → Dev} (still : f s.dev = s.dev) : s.whenRunning f = .next s := by
  unfold State.whenRunning
  rw [still]
  split <;> rfl

/-- What does nothing and is followed by the taking of reports changes nothing where none wait. -/
theorem State.whenRunning_flush_self {f : Dev → Dev} (quiet : s.dev.work = []) (still : f s.dev = s.dev) :
    s.whenRunning (fun d => (f d).flush) = .next s :=
  State.whenRunning_self (by rw [still, Dev.flush_of_no_work _ quiet])

theorem exec_row_notDue {c : Instr} {act : Dev → Request → Response × Dev}
    (meaning : exec c s = s.whenRunning (fun d => d.serveRow row act)) (named : rowCommand row = c) (notDue : c ∉ s.dev.due) :
    exec c s = .next s := by
  rw [meaning]
  exact State.whenRunning_self (serveRow_notDue (named ▸ notDue) act)

theorem exec_target_notDue {c : Instr} {n : Nat} {act : Dev → Nat → Response × Dev}
    (meaning : exec c s = s.whenRunning (fun d => d.serveOperate n act)) (named : rowCommand (10, n) = c)
    (notDue : c ∉ s.dev.due) :
    exec c s = .next s := by
  rw [meaning]
  exact State.whenRunning_self (serveRow_notDue (named ▸ notDue) _)

end

/-- Settles O20, command by command: a timer's command meets its condition, a row's its request, exactly when it is due. -/
theorem notDueChangesNothing : Obligations.NotDueChangesNothing := by
  intro c s waits notDue quiet
  cases c with
  | restartReset => exact congrArg _ (State.restart_notDue (restartDue_notDue notDue))
  | silenceTimeout => exact State.whenRunning_self (expireSilence_notDue notDue)
  | statusAgeExpiry b => exact State.whenRunning_flush_self (f := (·.expireStatusAge b)) quiet (expireStatusAge_notDue notDue)
  | commandRepeat b => exact State.whenRunning_self (f := (·.commandRepeat b)) (commandRepeat_notDue notDue)
  | operateTimerExpiry b => exact State.whenRunning_flush_self (f := (·.expireOperate b)) quiet (expireOperate_notDue notDue)
  | breakerFailureTimerExpiry b =>
    exact State.whenRunning_flush_self (f := (·.expireBreakerFailure b)) quiet (expireBreakerFailure_notDue notDue)
  | sourceTimerExpiry u =>
    exact State.whenRunning_flush_self (f := (·.expireSourceTimer u)) quiet (expireSourceTimer_notDue notDue)
  | stepWaitExpiry => exact State.whenRunning_flush_self quiet (expireStepWait_notDue notDue)
  | stepSyncTimeout => exact State.whenRunning_flush_self quiet (expireStepSync_notDue notDue)
  | awaitDeadline => exact State.whenRunning_flush_self quiet (expireAwait_notDue notDue)
  | delayDeadline => exact State.whenRunning_flush_self quiet (expireDelay_notDue notDue)
  | overlapTimerExpiry => exact State.whenRunning_flush_self quiet (expireOverlap_notDue notDue)
  | settlingEnd => exact State.whenRunning_flush_self quiet (endSettling_notDue notDue)
  | controllerAgeExpiry g =>
    exact State.whenRunning_flush_self (f := (·.expireControllerAge g)) quiet (expireControllerAge_notDue notDue)
  | startTimerExpiry g => exact State.whenRunning_flush_self (f := (·.expireStart g)) quiet (expireStart_notDue notDue)
  | syncTimerExpiry g => exact State.whenRunning_flush_self (f := (·.expireSync g)) quiet (expireSync_notDue notDue)
  | cooldownTimerExpiry g => exact State.whenRunning_flush_self (f := (·.expireCooldown g)) quiet (expireCooldown_notDue notDue)
  | setpointPeriod => exact State.whenRunning_flush_self quiet (setpointPeriod_notDue notDue)
  | selectionTimeout => exact State.whenRunning_self (expireSelection_notDue notDue)
  | ident => exact exec_row_notDue (row := (1, 0)) rfl rfl notDue
  | echo => exact exec_row_notDue (row := (2, 0)) rfl rfl notDue
  | read => exact exec_row_notDue (row := (3, 0)) rfl rfl notDue
  | write => exact State.whenRunning_self (serveWrite_notDue notDue)
  | watchSet => exact exec_row_notDue (row := (5, 0)) rfl rfl notDue
  | watchRead => exact exec_row_notDue (row := (6, 0)) rfl rfl notDue
  | force => exact exec_row_notDue (row := (7, 0)) rfl rfl notDue
  | forceClearAll => exact exec_row_notDue (row := (8, 0)) rfl rfl notDue
  | select => exact exec_row_notDue (row := (9, 0)) rfl rfl notDue
  | cancel => exact exec_row_notDue (row := (11, 0)) rfl rfl notDue
  | errors => exact exec_row_notDue (row := (12, 0)) rfl rfl notDue
  | captureRead => exact exec_row_notDue (row := (14, 0)) rfl rfl notDue
  | captureDelete => exact exec_row_notDue (row := (15, 0)) rfl rfl notDue
  | captureLock => exact exec_row_notDue (row := (16, 0)) rfl rfl notDue
  | captureUnlock => exact exec_row_notDue (row := (17, 0)) rfl rfl notDue
  | captureTrigger => exact exec_row_notDue (row := (18, 0)) rfl rfl notDue
  | unknownRequest => exact exec_row_notDue (row := (0, 0)) rfl rfl notDue
  | mode => exact exec_target_notDue (n := 0) rfl rfl notDue
  | maintOn => exact exec_target_notDue (n := 1) rfl rfl notDue
  | maintOff => exact exec_target_notDue (n := 2) rfl rfl notDue
  | restart => exact exec_target_notDue (n := 3) rfl rfl notDue
  | breakerOpen => exact exec_target_notDue (n := 4) rfl rfl notDue
  | breakerClose => exact exec_target_notDue (n := 5) rfl rfl notDue
  | lockoutReset => exact exec_target_notDue (n := 6) rfl rfl notDue
  | blockReset => exact exec_target_notDue (n := 7) rfl rfl notDue
  | runScheme => exact exec_target_notDue (n := 8) rfl rfl notDue
  | chgReset => exact exec_target_notDue (n := 9) rfl rfl notDue
  | chgInhibit => exact exec_target_notDue (n := 10) rfl rfl notDue
  | chgRelease => exact exec_target_notDue (n := 11) rfl rfl notDue
  | genReset => exact exec_target_notDue (n := 12) rfl rfl notDue
  | _ => exact absurd waits Bool.false_ne_true

end Sys2Proof.Machine

/-!
Operate timers and breaker failure (R110, R112 to R114), with O24: how far the error list fills, what a failure asks of each
backup, and what the end of a record leaves.
-/
namespace Sys2Proof.Machine

/-! ## The error list while it has room -/

/-- The entries that an error list comes to once NOTICE_OVERFLOW is among them. -/
def errorSpan (es : List ErrorEntry) : Nat := es.length + bit (!errorListed es .noticeOverflow noSubject)

theorem length_le_errorSpan (es : List ErrorEntry) : es.length ≤ errorSpan es := Nat.le_add_right _ _

theorem errorSpan_le (es : List ErrorEntry) : errorSpan es ≤ es.length + 1 := by
  unfold errorSpan bit
  split <;> omega

section
variable {es : List ErrorEntry} {c k : ErrorCode} {n m : Nat}

theorem errorListed_again (again : errorListed es k m = true) (listed : errorListed es c n = true) (now : Count32) :
    errorListed (addError es k m now) c n = true := by
  obtain ⟨e, member, code, subject⟩ := errorListed_iff.mp listed
  rw [addError_again again, errorListed_iff]
  exact ⟨_, List.mem_map_of_mem member, by split <;> exact ⟨code, subject⟩⟩

theorem errorListed_room (room : es.length < 16) (listed : errorListed es c n = true) (now : Count32) :
    errorListed (addError es k m now) c n = true := by
  obtain ⟨e, member, rfl, rfl⟩ := errorListed_iff.mp listed
  exact addError_keeps member (.inl room) _ _ _

theorem length_addError_again (again : errorListed es k m = true) (now : Count32) :
    (addError es k m now).length = es.length := by rw [addError_again again, List.length_map]

theorem length_addError_new (new : errorListed es k m = false) (room : es.length < 16) (now : Count32) :
    (addError es k m now).length = es.length + 1 := by
  rw [addError_new new, if_pos room, List.length_append, List.length_singleton]

/-- NOTICE_OVERFLOW takes the place that the span keeps for it. -/
theorem addError_overflow (span : errorSpan es ≤ 16) (now : Count32) :
    errorSpan (addError es .noticeOverflow noSubject now) = errorSpan es ∧
      (errorListed es c n = true → errorListed (addError es .noticeOverflow noSubject now) c n = true) := by
  have there := addError_listed es .noticeOverflow noSubject now
  cases h : errorListed es .noticeOverflow noSubject with
  | true =>
    refine ⟨?_, fun listed => errorListed_again h listed now⟩
    rw [errorSpan, errorSpan, there, h, length_addError_again h]
  | false =>
    have room : es.length < 16 := by
      simp only [errorSpan, h, bit, Bool.not_false, if_true] at span
      omega
    refine ⟨?_, fun listed => errorListed_room room listed now⟩
    rw [errorSpan, errorSpan, there, h, length_addError_new h room]
    rfl

/-- With room in the list an error adds at most one entry and takes none away. -/
theorem errorSpan_addError (room : es.length < 16) (now : Count32) : errorSpan (addError es c n now) ≤ errorSpan es + 1 := by
  have length : (addError es c n now).length ≤ es.length + 1 := by
    cases h : errorListed es c n with
    | true => rw [length_addError_again h]; omega
    | false => rw [length_addError_new h room]
  have overflow : bit (!errorListed (addError es c n now) .noticeOverflow noSubject) ≤
      bit (!errorListed es .noticeOverflow noSubject) := by
    cases h : errorListed es .noticeOverflow noSubject with
    | true => rw [errorListed_room room h]
    | false => unfold bit; split <;> decide
  unfold errorSpan
  omega

end

section
variable {d : Dev} {c k : ErrorCode} {n m : Nat}

/-- A notice takes no error away while the list has its span. -/
theorem queueNotice_keeps (span : errorSpan d.mgt.errors ≤ 16) (listed : errorListed d.mgt.errors c n = true)
    (kind subject : Nat) (detail : List Byte) :
    errorListed (d.queueNotice kind subject detail).mgt.errors c n = true := by
  rcases queueNotice_errors d kind subject detail with same | more
  · rw [same]
    exact listed
  · rw [more]
    exact (addError_overflow span d.now).2 listed

theorem recordError_span (room : errorSpan d.mgt.errors < 16) (c : ErrorCode) (n : Nat) :
    errorSpan (d.recordError c n).mgt.errors ≤ errorSpan d.mgt.errors + 1 := by
  have noted := errorSpan_addError (c := c) (n := n) (Nat.lt_of_le_of_lt (length_le_errorSpan _) room) d.now
  rcases recordError_errors d c n with same | more
  · rw [same]
    exact noted
  · rw [more, (addError_overflow (c := c) (n := n) (noted.trans room) d.now).1]
    exact noted

theorem recordError_keeps (room : errorSpan d.mgt.errors < 16) (listed : errorListed d.mgt.errors c n = true) :
    errorListed (d.recordError k m).mgt.errors c n = true := by
  have short := Nat.lt_of_le_of_lt (length_le_errorSpan _) room
  have noted := errorSpan_addError (c := k) (n := m) short d.now
  have kept := errorListed_room (k := k) (m := m) short listed d.now
  rcases recordError_errors d k m with same | more
  · rw [same]
    exact kept
  · rw [more]
    exact (addError_overflow (noted.trans room) d.now).2 kept

end

/-! ## What requests to SWM leave of MGT -/

section
variable (d : Dev) (b : Fin 24)

theorem reportEnd_mgt (r : CmdRecord) (e : RecordEnd) : (d.reportEnd b r e).mgt = d.mgt := by
  unfold Dev.reportEnd
  split
  · dsimp only
    split <;> split <;> rfl
  · split
    · split <;> rfl
    · rfl
    · rfl

theorem endRecord_mgt (e : RecordEnd) : (d.endRecord b e).mgt = d.mgt := by
  unfold Dev.endRecord
  split
  · rfl
  · dsimp only
    split <;> exact reportEnd_mgt _ _ _ _

theorem startRecord_errors (a : Action) (prot arm : Bool) (q : Requester) :
    (d.startRecord b a prot arm q).mgt.errors = d.mgt.errors := by
  unfold Dev.startRecord Dev.enqueueCommand
  dsimp only
  rw [runPort_errors]
  rfl

theorem accept_errors (q : OpRequest) : (d.accept q).2.mgt.errors = d.mgt.errors := by
  unfold Dev.accept
  split
  · split
    · rfl
    · dsimp only
      rw [startRecord_errors, endRecord_mgt]
  · exact startRecord_errors _ _ _ _ _ _

theorem protOpen_errors (arm : Bool) (q : Requester) : (d.protOpen b arm q).mgt.errors = d.mgt.errors := by
  unfold Dev.protOpen Dev.request
  split
  · rfl
  · exact accept_errors _ _

/-! ## A backup in its turn (R114) -/

/-- A backup is locked out and has a protection OPEN. -/
def Dev.tripBackup (x : Fin 24) : Dev := (d.writeLockout x true).protOpen x false (.failure b)

variable (x k : Fin 24)

theorem tripBackup_besideTrips : (d.tripBackup b x).besideTrips = d.besideTrips :=
  (besideTrips_of_shell (shell_protOpen _ _ _ _)).trans (writeLockout_besideTrips _ _ _)

theorem tripBackup_errors : (d.tripBackup b x).mgt.errors = d.mgt.errors := by
  rw [Dev.tripBackup, protOpen_errors]
  unfold Dev.writeLockout
  split <;> rfl

theorem tripBackup_other (other : k ≠ x) : (d.tripBackup b x).breaker k = d.breaker k :=
  (other_protOpen _ _ _ _ _ other).trans (writeLockout_breaker _ _ _ _)

theorem tripBackup_locked : (d.tripBackup b x).locked k = if k = x then true else d.locked k := by
  rw [← writeLockout_locked, Dev.locked, Dev.breakerCfg, Dev.tripBackup, tab_of_shell (shell_protOpen _ _ _ _)]
  rfl

theorem writeLockout_used (v : Bool) : ((d.writeLockout x v).breakerCfg k).used = (d.breakerCfg k).used := by
  unfold Dev.writeLockout
  split
  · rfl
  · have entry : (Dev.storeJob { d with tab := d.tab.setLockout x (bit v) } (.lockout x (bit v))).breakerCfg k =
        if k = x then { d.breakerCfg k with lockout := bit v } else d.breakerCfg k := tget_tmod _ _ _ _
    rw [entry]
    split <;> rfl

theorem tripBackup_used : ((d.tripBackup b x).breakerCfg k).used = (d.breakerCfg k).used := by
  rw [← writeLockout_used d x k true, Dev.breakerCfg, Dev.tripBackup, tab_of_shell (shell_protOpen _ _ _ _)]
  rfl

theorem tripBackup_record (used : (d.breakerCfg x).used = true) :
    ∃ r, ((d.tripBackup b x).breaker x).record = some r ∧ r.prot = true :=
  protOpen_record _ _ _ _ ((writeLockout_used d x x true).trans used)

theorem tripBackup_protOpens (opens : ∀ k, (d.breaker k).protOpens) : ∀ k, ((d.tripBackup b x).breaker k).protOpens :=
  protOpens_inner.protOpen _ _ _ (fun k => by rw [writeLockout_breaker]; exact opens k)

end

/-! ## Every backup in turn -/

section
variable (d : Dev) (b : Fin 24) (ids : List (Fin 24)) {k : Fin 24}

/-- Every backup of a list is locked out and has a protection OPEN. -/
def Dev.tripBackups : Dev := forEach ids (fun x d => d.tripBackup b x) d

theorem tripBackups_besideTrips : (d.tripBackups b ids).besideTrips = d.besideTrips :=
  forEach_frame Dev.besideTrips (fun x d => tripBackup_besideTrips d b x) ids d

theorem tripBackups_errors : (d.tripBackups b ids).mgt.errors = d.mgt.errors :=
  forEach_frame (fun d => d.mgt.errors) (fun x d => tripBackup_errors d b x) ids d

theorem tripBackups_other (outside : k ∉ ids) : (d.tripBackups b ids).breaker k = d.breaker k := by
  unfold Dev.tripBackups
  induction ids generalizing d with
  | nil => rfl
  | cons x xs ih =>
    obtain ⟨other, outside⟩ := not_or.mp (mt List.mem_cons.mpr outside)
    exact (ih _ outside).trans (tripBackup_other d b x k other)

theorem tripBackups_locked (member : k ∈ ids) : (d.tripBackups b ids).locked k = true := by
  refine forEach_reaches (f := fun x d => Dev.tripBackup d b x) (I := fun _ => True) (Q := fun e : Dev => e.locked k = true)
    (fun _ _ h => h) (fun e _ => ?_) (fun x e other h => ?_) member trivial
  · rw [tripBackup_locked, if_pos rfl]
  · rw [tripBackup_locked, if_neg other.symm]
    exact h

theorem tripBackups_protOpens (opens : ∀ k, (d.breaker k).protOpens) : ∀ k, ((d.tripBackups b ids).breaker k).protOpens :=
  forEach_keeps (fun e : Dev => ∀ k, (e.breaker k).protOpens) ids _ d (fun x e h => tripBackup_protOpens e b x h) opens

/-- Every used backup has the protection OPEN (R111, R114). -/
theorem tripBackups_record (opens : ∀ k, (d.breaker k).protOpens) (member : k ∈ ids) (used : (d.breakerCfg k).used = true) :
    ∃ r, ((d.tripBackups b ids).breaker k).record = some r ∧ r.prot = true ∧ r.action = .openIt := by
  obtain ⟨r, record, prot⟩ : ∃ r, ((d.tripBackups b ids).breaker k).record = some r ∧ r.prot = true := by
    refine forEach_reaches (f := fun x d => Dev.tripBackup d b x) (I := fun e : Dev => (e.breakerCfg k).used = true)
      (Q := fun e : Dev => ∃ r, (e.breaker k).record = some r ∧ r.prot = true)
      (fun x e h => (tripBackup_used e b x k).trans h) (fun e h => tripBackup_record e b k h) (fun x e other h => ?_) member used
    rw [tripBackup_other e b x k other.symm]
    exact h
  exact ⟨r, record, prot, tripBackups_protOpens d b ids opens k r record prot⟩

end

/-! ## Breaker failure (R114) -/

section
variable {d : Dev} {b : Fin 24} {id : Count16}

/-- The device once the backups have been asked and BF_OPERATED recorded. -/
def Dev.failureRecorded (d : Dev) (b : Fin 24) : Dev :=
  (d.tripBackups b (d.breakerCfg b).backupIds).recordError .bfOperated b.val

theorem breakerFailure_eq : d.breakerFailure b id = (d.failureRecorded b).bfNotice b id (d.breakerCfg b).backupIds.length := rfl

/-- The error and the notice touch LNK and MGT alone. -/
theorem breakerFailure_bare : (d.breakerFailure b id).bare = (d.tripBackups b (d.breakerCfg b).backupIds).bare := by
  rw [breakerFailure_eq]
  exact (bare_queueNotice _ _ _ _).trans (bare_recordError _ _ _)

theorem breakerFailure_listed (room : errorSpan d.mgt.errors < 16) :
    errorListed (d.breakerFailure b id).mgt.errors .bfOperated b.val = true := by
  rw [← tripBackups_errors d b (d.breakerCfg b).backupIds] at room
  rw [breakerFailure_eq]
  exact queueNotice_keeps ((recordError_span room _ _).trans room) (recordError_listed (.inl rfl) _) _ _ _

theorem breakerFailure_keeps (room : errorSpan d.mgt.errors < 16) {c : ErrorCode} {n : Nat}
    (listed : errorListed d.mgt.errors c n = true) : errorListed (d.breakerFailure b id).mgt.errors c n = true := by
  rw [← tripBackups_errors d b (d.breakerCfg b).backupIds] at room listed
  rw [breakerFailure_eq]
  exact queueNotice_keeps ((recordError_span room _ _).trans room) (recordError_keeps room listed) _ _ _

/-- A breaker failure locks out and opens every used backup of the breaker, and leaves the other breakers and blocks alone. -/
structure Dev.failedFrom (x d : Dev) (b : Fin 24) : Prop where
  locked : ∀ k ∈ (d.breakerCfg b).backupIds, x.locked k = true
  opened : ∀ k ∈ (d.breakerCfg b).backupIds, (d.breakerCfg k).used = true →
    ∃ r, (x.breaker k).record = some r ∧ r.prot = true ∧ r.action = .openIt
  other  : ∀ k, k ∉ (d.breakerCfg b).backupIds → x.breaker k = d.breaker k
  blocks : x.meas = d.meas ∧ x.prot = d.prot ∧ x.chg = d.chg ∧ x.par = d.par

theorem locked_of_bare {x e : Dev} (h : x.bare = e.bare) (k : Fin 24) : x.locked k = e.locked k :=
  show x.bare.locked k = e.bare.locked k by rw [h]

theorem blocks_of_besideTrips {x e : Dev} (h : x.besideTrips = e.besideTrips) :
    x.meas = e.meas ∧ x.prot = e.prot ∧ x.chg = e.chg ∧ x.par = e.par :=
  ⟨(congrArg Dev.meas h :), (congrArg Dev.prot h :), (congrArg Dev.chg h :), (congrArg Dev.par h :)⟩

theorem breakerFailure_failedFrom (opens : ∀ k, (d.breaker k).protOpens) : (d.breakerFailure b id).failedFrom d b where
  locked k member := (locked_of_bare breakerFailure_bare k).trans (tripBackups_locked _ _ _ member)
  opened k member used := by
    rw [breaker_of_bare breakerFailure_bare]
    exact tripBackups_record _ _ _ opens member used
  other k outside := (breaker_of_bare breakerFailure_bare k).trans (tripBackups_other _ _ _ outside)
  blocks := blocks_of_besideTrips
    ((besideTrips_of_shell (shell_of_bare breakerFailure_bare)).trans (tripBackups_besideTrips _ _ _))

end

/-! ## The operate timer (R110) -/

section
variable {d : Dev} {b : Fin 24} {r : CmdRecord}

/-- The device once a record has ended FAILED and OPERATE_TIMEOUT is recorded (R110). -/
def Dev.operateTimedOut (d : Dev) (b : Fin 24) : Dev := (d.endRecord b .failed).recordError .operateTimeout b.val

theorem operateTimedOut_breaker (x : Fin 24) : (d.operateTimedOut b).breaker x = (d.endRecord b .failed).breaker x :=
  breaker_of_bare (bare_recordError _ _ _) x

theorem operateTimedOut_shell : (d.operateTimedOut b).shell = d.shell :=
  (shell_of_bare (bare_recordError _ _ _)).trans (shell_endRecord d b .failed)

theorem operateTimedOut_other {x : Fin 24} (other : x ≠ b) : (d.operateTimedOut b).breaker x = d.breaker x :=
  (operateTimedOut_breaker x).trans (other_endRecord d b x .failed other)

theorem operateTimedOut_ended (record : (d.breaker b).record = some r) :
    ((d.operateTimedOut b).breaker b).record = none ∧ ((d.operateTimedOut b).breaker b).outcome = .failed := by
  rw [operateTimedOut_breaker]
  exact endRecord_breaker d b .failed record

theorem operateTimedOut_listed (room : d.mgt.errors.length < 15) :
    errorListed (d.operateTimedOut b).mgt.errors .operateTimeout b.val = true :=
  recordError_listed (.inr (by rw [endRecord_mgt]; exact room)) _

theorem operateTimedOut_span (room : errorSpan d.mgt.errors < 16) :
    errorSpan (d.operateTimedOut b).mgt.errors ≤ errorSpan d.mgt.errors + 1 := by
  rw [← endRecord_mgt d b .failed] at room ⊢
  exact recordError_span room _ _

theorem operateTimedOut_protOpens (opens : ∀ k, (d.breaker k).protOpens) : ∀ k, ((d.operateTimedOut b).breaker k).protOpens :=
  protOpens_inner.recordError _ _ (protOpens_inner.endRecord _ _ opens)

theorem reportEnd_failed_untold (prot : r.prot = true) (untold : r.tellChg = false) : d.reportEnd b r .failed = d := by
  simp [Dev.reportEnd, prot, untold]

/-- The end of a protection record that no block waits for reports nothing (R112). -/
theorem operateTimedOut_work (record : (d.breaker b).record = some r) (prot : r.prot = true) (untold : r.tellChg = false)
    (unasked : (d.breaker b).releasePending = false) : (d.operateTimedOut b).work = d.work := by
  have still : (((d.modBreaker b (fun x => { x with record := none, outcome := .failed })).removeCommand b).breaker
      b).releasePending = false :=
    (congrArg BreakerRec.releasePending (Dev.modBreaker_breaker_same d b _)).trans unasked
  rw [Dev.operateTimedOut, work_of_bare (bare_recordError _ _ _)]
  simp only [Dev.endRecord, record, reportEnd_failed_untold prot untold, still, Bool.false_eq_true, if_false]
  rfl

theorem expireOperate_plain (record : (d.breaker b).record = some r) (due : reached r.opEnd d.now = true)
    (settled : r.bfEnd = none ∨ r.bfOperated = true) : d.expireOperate b = d.operateTimedOut b := by
  have stopped : r.bfRunning = false := by rcases settled with h | h <;> simp [CmdRecord.bfRunning, h]
  simp only [Dev.expireOperate, record, due, stopped, if_true, Bool.false_eq_true, if_false]
  rfl

theorem bfRunning_of {e : Count32} (armed : r.bfEnd = some e) (pending : r.bfOperated = false) : r.bfRunning = true := by
  simp [CmdRecord.bfRunning, armed, pending]

theorem expireOperate_failing (record : (d.breaker b).record = some r) (due : reached r.opEnd d.now = true)
    {e : Count32} (armed : r.bfEnd = some e) (pending : r.bfOperated = false) :
    d.expireOperate b = (d.operateTimedOut b).breakerFailure b r.id := by
  simp only [Dev.expireOperate, record, due, bfRunning_of armed pending, if_true]
  rfl

/-! ## The breaker-failure timer (R113) -/

/-- The device with a record marked, so that its failure operates once (R113). -/
def Dev.failureMarked (d : Dev) (b : Fin 24) (r : CmdRecord) : Dev :=
  d.modBreaker b (fun x => { x with record := some { r with bfOperated := true } })

theorem expireBreakerFailure_due (record : (d.breaker b).record = some r) {e : Count32} (armed : r.bfEnd = some e)
    (pending : r.bfOperated = false) (due : reached e d.now = true) :
    d.expireBreakerFailure b = (d.failureMarked b r).breakerFailure b r.id := by
  have fires : (r.bfRunning && reached? r.bfEnd d.now) = true := by
    rw [bfRunning_of armed pending, armed]
    exact due
  simp only [Dev.expireBreakerFailure, record, fires, if_true]
  rfl

theorem failureMarked_protOpens (record : (d.breaker b).record = some r) (opens : ∀ k, (d.breaker k).protOpens) :
    ∀ k, ((d.failureMarked b r).breaker k).protOpens :=
  breakers_mod opens b _ (fun own c marked prot => by cases marked; exact own r record prot)

end

theorem exec_operateTimerExpiry {s : State} (run : s.power = .running) (b : Fin 24) :
    exec (.operateTimerExpiry b) s = .next (s.withDev (s.dev.expireOperate b).flush) :=
  State.whenRunning_eq run (fun d => (d.expireOperate b).flush)

theorem exec_breakerFailureTimerExpiry {s : State} (run : s.power = .running) (b : Fin 24) :
    exec (.breakerFailureTimerExpiry b) s = .next (s.withDev (s.dev.expireBreakerFailure b).flush) :=
  State.whenRunning_eq run (fun d => (d.expireBreakerFailure b).flush)

/-- Settles O24: the end of the record, the failure after it where its timer still runs, and the failure by its own timer. -/
theorem operateAndFailureTimers : Obligations.OperateAndFailureTimers := by
  refine ⟨fun s b r run record due settled room quiet => ?_, fun s b r e run record due armed pending room opens => ?_,
    fun s b r e run record armed pending due opens => ?_⟩
  · obtain ⟨ended, failed⟩ := operateTimedOut_ended record
    refine ⟨s.dev.operateTimedOut b, ?_, ended, failed, operateTimedOut_listed room, fun x => operateTimedOut_other,
      operateTimedOut_shell, fun prot untold unasked => (operateTimedOut_work record prot untold unasked).trans quiet⟩
    rw [exec_operateTimerExpiry run, expireOperate_plain record due settled]
  · have span : errorSpan s.dev.mgt.errors ≤ 14 := (errorSpan_le _).trans room
    have room' : errorSpan (s.dev.operateTimedOut b).mgt.errors < 16 := by
      have := operateTimedOut_span (b := b) (show errorSpan s.dev.mgt.errors < 16 by omega)
      omega
    have entry (k : Fin 24) : (s.dev.operateTimedOut b).breakerCfg k = s.dev.breakerCfg k := by
      rw [Dev.breakerCfg, tab_of_shell operateTimedOut_shell]
      rfl
    have timeout := operateTimedOut_listed (d := s.dev) (b := b) (by omega)
    have failure := breakerFailure_failedFrom (b := b) (id := r.id) (operateTimedOut_protOpens (b := b) opens)
    obtain ⟨meas, prot, chg, par⟩ := failure.blocks
    obtain ⟨meas', prot', chg', par'⟩ :=
      blocks_of_besideTrips (besideTrips_of_shell (operateTimedOut_shell (d := s.dev) (b := b)))
    have locked := failure.locked
    have opened := failure.opened
    have other := failure.other
    simp only [entry] at locked opened other
    refine ⟨(s.dev.operateTimedOut b).breakerFailure b r.id, ?_, breakerFailure_keeps room' timeout, breakerFailure_listed room',
      locked, opened, fun outside => ?_, fun x apart outside => ?_, meas.trans meas', prot.trans prot', chg.trans chg',
      par.trans par'⟩
    · rw [exec_operateTimerExpiry run, expireOperate_failing record due armed pending]
    · rw [other b outside]
      exact operateTimedOut_ended record
    · rw [other x outside, operateTimedOut_other apart]
  · have failure := breakerFailure_failedFrom (b := b) (id := r.id) (failureMarked_protOpens record opens)
    obtain ⟨meas, prot, chg, par⟩ := failure.blocks
    refine ⟨(s.dev.failureMarked b r).breakerFailure b r.id, ?_, fun room => breakerFailure_listed ?_, failure.locked,
      failure.opened, fun outside => ?_, fun x apart outside => ?_, meas, prot, chg, par⟩
    · rw [exec_breakerFailureTimerExpiry run, expireBreakerFailure_due record armed pending due]
    · exact Nat.lt_of_le_of_lt (errorSpan_le _) (Nat.succ_lt_succ room)
    · rw [failure.other b outside, Dev.failureMarked, Dev.modBreaker_breaker_same]
    · rw [failure.other x outside, Dev.failureMarked, Dev.modBreaker_breaker_ne _ _ _ _ apart]

end Sys2Proof.Machine

/-!
OPERATE of BREAKER_OPEN and BREAKER_CLOSE (R102, R104 to R107, R115): MGT's claim, the decision on its request and what follows
from it, with O44 and O45.
-/
namespace Sys2Proof.Machine

/-! ## Updates of a breaker -/

theorem Dev.modBreaker_twice (d : Dev) (b : Fin 24) (f g : BreakerRec → BreakerRec) :
    (d.modBreaker b f).modBreaker b g = d.modBreaker b (fun r => g (f r)) := by
  simp only [Dev.modBreaker, tmod, tget_tset_same]
  simp only [tset, Vector.set_set]

theorem Dev.modBreaker_self {d : Dev} {b : Fin 24} {f : BreakerRec → BreakerRec} (same : f (d.breaker b) = d.breaker b) :
    d.modBreaker b f = d := by
  have table : tmod d.swm.breakers b f = d.swm.breakers := by
    rw [tmod, show f (tget d.swm.breakers b) = tget d.swm.breakers b from same, tset_tget]
  rw [Dev.modBreaker, table]

/-! ## MGT's claim (R102) -/

section
variable (d : Dev) (b x : Fin 24)

/-- The device with MGT holding the claim on a breaker. -/
def Dev.mgtClaimed : Dev := d.modBreaker b (fun r => { r with claim := some .mgt, releasePending := false })

theorem mgtClaimed_breaker : (d.mgtClaimed b).breaker x =
    if x = b then { d.breaker x with claim := some .mgt, releasePending := false } else d.breaker x :=
  Dev.modBreaker_breaker _ _ _ _

theorem mgtClaimed_position : (d.mgtClaimed b).position x = d.position x := by
  rw [Dev.position, mgtClaimed_breaker]
  split <;> rfl

theorem mgtClaimed_record : ((d.mgtClaimed b).breaker x).record = (d.breaker x).record := by
  rw [mgtClaimed_breaker]
  split <;> rfl

theorem mgtClaimed_permissive : (d.mgtClaimed b).permissive x = d.permissive x := by
  have terms : (d.mgtClaimed b).termHolds = d.termHolds := by
    funext t
    simp only [Dev.termHolds, mgtClaimed_position]
    rfl
  have failed : ((d.mgtClaimed b).breaker x).failedCfg = (d.breaker x).failedCfg := by
    rw [mgtClaimed_breaker]
    split <;> rfl
  rw [Dev.permissive, terms, failed]
  rfl

theorem mgtClaimed_sides : (d.mgtClaimed b).sides x = d.sides x := by
  have closing (y : Fin 6) : (d.mgtClaimed b).closingOnto x y = d.closingOnto x y := by
    simp only [Dev.closingOnto, mgtClaimed_record]
    rfl
  have side (y : Option (Fin 6)) : (d.mgtClaimed b).sideState x y = d.sideState x y := by
    cases y with
    | none => rfl
    | some y =>
      rw [Dev.sideState, closing]
      rfl
  have genSide : ((d.mgtClaimed b).breaker x).genSide = (d.breaker x).genSide := by
    rw [mgtClaimed_breaker]
    split <;> rfl
  rw [Dev.sides, side, side, genSide]
  rfl

end

/-! ## What stands against a CLOSE of MGT's (R105, R106) -/

/-- A CLOSE of a breaker by MGT is refused for its permission or its class. -/
def Dev.closeBarred (d : Dev) (b : Fin 24) : Prop :=
  d.locked b = true ∨ (d.breaker b).inLocal = true ∨ (d.breaker b).spring = false ∨ d.position b ≠ .openPos ∨
    d.permissive b = false ∨ (d.sides b).1 = .indeterminate ∨ (d.sides b).2 = .indeterminate ∨
    ((d.sides b).1 = .live ∧ (d.sides b).2 = .live)

theorem not_closeBarred_iff {d : Dev} {b : Fin 24} : ¬ d.closeBarred b ↔
    d.locked b = false ∧ (d.breaker b).inLocal = false ∧ (d.breaker b).spring = true ∧ d.position b = .openPos ∧
      d.permissive b = true ∧ (d.sides b).1 ≠ .indeterminate ∧ (d.sides b).2 ≠ .indeterminate ∧
      ¬ ((d.sides b).1 = .live ∧ (d.sides b).2 = .live) := by
  simp only [Dev.closeBarred, not_or, Bool.not_eq_true, Bool.not_eq_false, not_not, ne_eq]

theorem closeBarred_of_bare {d e : Dev} (h : d.bare = e.bare) (b : Fin 24) : d.closeBarred b ↔ e.closeBarred b :=
  show d.bare.closeBarred b ↔ e.bare.closeBarred b by rw [h]

theorem breakerCfg_of_bare {d e : Dev} (h : d.bare = e.bare) (b : Fin 24) : d.breakerCfg b = e.breakerCfg b :=
  show d.bare.breakerCfg b = e.bare.breakerCfg b by rw [h]

section
variable {d : Dev} {b : Fin 24}

theorem mgtClaimed_closeBarred : (d.mgtClaimed b).closeBarred b ↔ d.closeBarred b := by
  rw [Dev.closeBarred, mgtClaimed_breaker, mgtClaimed_position, mgtClaimed_permissive, mgtClaimed_sides, if_pos rfl]
  rfl

/-- The permission of R105 for MGT, to which no transfer block matters. -/
theorem closeRefusal_mgt_none : d.closeRefusal b .mgt = none ↔ d.locked b = false ∧ (d.breaker b).inLocal = false ∧
    (d.breaker b).spring = true ∧ d.position b = .openPos ∧ d.permissive b = true := by
  unfold Dev.closeRefusal
  by_cases isOpen : d.position b = .openPos <;> cases d.locked b <;> cases (d.breaker b).inLocal <;>
    cases (d.breaker b).spring <;> cases d.permissive b <;> simp [isOpen]

/-- The class of R106 for MGT, which brings no synchroniser result. -/
theorem classify_mgt_none : d.classify b .mgt none = none ↔ (d.sides b).1 ≠ .indeterminate ∧ (d.sides b).2 ≠ .indeterminate ∧
    ¬ ((d.sides b).1 = .live ∧ (d.sides b).2 = .live) := by
  unfold Dev.classify
  rcases d.sides b with ⟨x, y⟩
  cases x <;> cases y <;> simp

/-- No refusal for permission or class is CLAIMED or BUSY. -/
theorem closeRefusal_result {r : Refused} (refused : d.closeRefusal b .mgt = some r) : r.result = 9 := by
  unfold Dev.closeRefusal at refused
  repeat' split at refused
  all_goals cases refused
  all_goals rfl

theorem classify_result {r : Refused} (refused : d.classify b .mgt none = some r) : r.result = 9 := by
  unfold Dev.classify at refused
  repeat' split at refused
  all_goals cases refused
  all_goals rfl

/-- The request that MGT makes for a BREAKER_OPEN or a BREAKER_CLOSE (R115). -/
def mgtRequest (b : Fin 24) (a : Action) : OpRequest := { breaker := b, action := a, requester := .block .mgt }

theorem decideRequest_busy {a : Action} (active : (d.breaker b).record.isSome = true) :
    d.decideRequest (mgtRequest b a) = some .busy := by
  obtain ⟨r, record⟩ := Option.isSome_iff_exists.mp active
  simp [Dev.decideRequest, mgtRequest, record]

theorem decideRequest_open (free : (d.breaker b).record = none) : d.decideRequest (mgtRequest b .openIt) = none := by
  simp [Dev.decideRequest, mgtRequest, free]

theorem decideRequest_close (free : (d.breaker b).record = none) :
    d.decideRequest (mgtRequest b .closeIt) = (d.closeRefusal b .mgt).or (d.classify b .mgt none) := by
  simp only [Dev.decideRequest, mgtRequest, free, OpRequest.block, Bool.false_eq_true, if_false]
  cases d.closeRefusal b .mgt <;> rfl

theorem decideRequest_close_free (free : (d.breaker b).record = none) (clear : ¬ d.closeBarred b) :
    d.decideRequest (mgtRequest b .closeIt) = none := by
  obtain ⟨unlocked, remote, spring, isOpen, permitted, sides⟩ := not_closeBarred_iff.mp clear
  rw [decideRequest_close free, closeRefusal_mgt_none.mpr ⟨unlocked, remote, spring, isOpen, permitted⟩,
    classify_mgt_none.mpr sides]
  rfl

theorem decideRequest_close_barred (free : (d.breaker b).record = none) (barred : d.closeBarred b) :
    ∃ r, d.decideRequest (mgtRequest b .closeIt) = some r ∧ r.result = 9 := by
  rw [decideRequest_close free]
  cases permission : d.closeRefusal b .mgt with
  | some r => exact ⟨r, rfl, closeRefusal_result permission⟩
  | none =>
    obtain ⟨unlocked, remote, spring, isOpen, permitted⟩ := closeRefusal_mgt_none.mp permission
    cases kind : d.classify b .mgt none with
    | some r => exact ⟨r, rfl, classify_result kind⟩
    | none =>
      exact absurd barred
        (not_closeBarred_iff.mpr ⟨unlocked, remote, spring, isOpen, permitted, classify_mgt_none.mp kind⟩)

end

/-! ## SWM's answer to MGT (R104) -/

section
variable {d : Dev} {b : Fin 24} {a : Action}

theorem claim_mgt_granted (free : (d.breaker b).claim = none ∨ (d.breaker b).claim = some .mgt) :
    d.claim b .mgt = (.granted, d.mgtClaimed b) := by
  have decision : decideClaim (d.breaker b).claim .mgt (d.breakerCfg b).isGen = .granted := by
    rcases free with claim | claim <;> rw [claim] <;> rfl
  simp only [Dev.claim, decision]
  rfl

theorem claim_mgt_refused {h : Holder} (held : (d.breaker b).claim = some h) (other : h ≠ .mgt) :
    d.claim b .mgt = (.claimed, d) := by
  have decision : decideClaim (d.breaker b).claim .mgt (d.breakerCfg b).isGen = .claimed := by
    rw [held]
    exact if_neg other
  simp only [Dev.claim, decision]

theorem request_unused (unused : (d.breakerCfg b).used = false) : d.request (mgtRequest b a) = (.error .permissive, d) :=
  if_pos (by rw [mgtRequest, unused]; rfl)

/-- MGT's requests are taken in every mode (R118). -/
theorem request_used (used : (d.breakerCfg b).used = true) :
    d.request (mgtRequest b a) = d.requestClaimed (mgtRequest b a) .mgt := by
  have known : ¬ (!(d.breakerCfg (mgtRequest b a).breaker).used) = true := by rw [mgtRequest, used]; nofun
  rw [Dev.request, if_neg known]
  exact if_neg fun service => service.2 rfl

theorem request_held {h : Holder} (used : (d.breakerCfg b).used = true) (held : (d.breaker b).claim = some h)
    (other : h ≠ .mgt) : d.request (mgtRequest b a) = (.error .claimed, d) := by
  rw [request_used used, Dev.requestClaimed, show (mgtRequest b a).breaker = b from rfl, claim_mgt_refused held other]

/-- A refused request releases the claim that it took. -/
theorem request_refused (used : (d.breakerCfg b).used = true)
    (free : (d.breaker b).claim = none ∨ (d.breaker b).claim = some .mgt) {r : Refused}
    (refused : (d.mgtClaimed b).decideRequest (mgtRequest b a) = some r) : d.request (mgtRequest b a) =
      (.error r, if (d.breaker b).claim = none then (d.mgtClaimed b).dropClaim b else d) := by
  rw [request_used used, Dev.requestClaimed, show (mgtRequest b a).breaker = b from rfl, claim_mgt_granted free]
  simp only [refused]

theorem request_accepted (used : (d.breakerCfg b).used = true)
    (free : (d.breaker b).claim = none ∨ (d.breaker b).claim = some .mgt) (idle : (d.breaker b).record = none)
    (accepted : (d.mgtClaimed b).decideRequest (mgtRequest b a) = none) : d.request (mgtRequest b a) =
      (.ok (d.breaker b).nextId, (d.mgtClaimed b).startRecord b a false false (.block .mgt)) := by
  have record : ((d.mgtClaimed b).breaker b).record = none := (mgtClaimed_record d b b).trans idle
  have id : ((d.mgtClaimed b).breaker b).nextId = (d.breaker b).nextId := by rw [mgtClaimed_breaker, if_pos rfl]
  rw [request_used used, Dev.requestClaimed, show (mgtRequest b a).breaker = b from rfl, claim_mgt_granted free]
  simp only [accepted, Dev.accept, show (mgtRequest b a).breaker = b from rfl, record, id]
  rfl

theorem opBreaker_unknown {n : Nat} (none : 24 ≤ n) : d.opBreaker n a = (refuse resInvalid, d) := by
  simp only [Dev.opBreaker, toId_none none]

theorem opBreaker_refused {r : Refused} {x : Dev} (refused : d.request (mgtRequest b a) = (.error r, x)) :
    d.opBreaker b.val a = (refuse r.result, x) := by
  rw [mgtRequest] at refused
  simp only [Dev.opBreaker, toId_val, refused]

theorem opBreaker_accepted {id : Count16} {x : Dev} (accepted : d.request (mgtRequest b a) = (.ok id, x)) :
    d.opBreaker b.val a = (okBytes (beBytes 2 id.toNat), x) := by
  rw [mgtRequest] at accepted
  simp only [Dev.opBreaker, toId_val, accepted]

end

/-- The operate target of an action (R115). -/
def Action.operateTarget : Action → Nat
  | .openIt => 4
  | .closeIt => 5

theorem exec_opBreaker (a : Action) (s : State) :
    exec (rowCommand (10, a.operateTarget)) s
      = s.whenRunning (fun d => d.serveOperate a.operateTarget (fun d x => d.opBreaker x a)) := by
  cases a <;> rfl

/-! ## Acceptance -/

section
variable (d : Dev) (b : Fin 24) (a : Action)

/-- The record that MGT's accepted request makes (R107). -/
def Dev.mgtRecord : CmdRecord :=
  { id := (d.breaker b).nextId, action := a, prot := false, requester := .block .mgt, issue := d.now, repeatNo := 0
    nextRepeat := after d.now 2, opEnd := after d.now (d.breakerCfg b).timeout, bfEnd := none, bfOperated := false
    tellChg := false }

/-- The device after an accepted request of MGT's (R102, R107). -/
def Dev.mgtStarted : Dev := (d.mgtClaimed b).startRecord b a false false (.block .mgt)

theorem mgtRecord_of_bare {d e : Dev} (h : d.bare = e.bare) : d.mgtRecord b a = e.mgtRecord b a :=
  show d.bare.mgtRecord b a = e.bare.mgtRecord b a by rw [h]

theorem commandFrame_of_bare {d e : Dev} (h : d.bare = e.bare) (r : CmdRecord) : d.commandFrame b r = e.commandFrame b r :=
  show d.bare.commandFrame b r = e.bare.commandFrame b r by rw [h]

theorem mgtStarted_record : (d.mgtClaimed b).makeRecord b a false false (.block .mgt) = d.mgtRecord b a := by
  rw [Dev.makeRecord, mgtClaimed_breaker, if_pos rfl]
  rfl

theorem mgtStarted_breaker : (d.mgtStarted b a).breaker b = { d.breaker b with
    claim := some .mgt, releasePending := false, nextId := (d.breaker b).nextId + 1, record := some (d.mgtRecord b a) } := by
  rw [Dev.mgtStarted, startRecord_breaker, mgtStarted_record, mgtClaimed_breaker, if_pos rfl]

theorem mgtStarted_other {x : Fin 24} (other : x ≠ b) : (d.mgtStarted b a).breaker x = d.breaker x :=
  (other_startRecord _ _ _ _ _ _ _ other).trans (other_modBreaker _ _ _ _ other)

theorem mgtStarted_shell : (d.mgtStarted b a).shell = d.shell := shell_startRecord _ _ _ _ _ _

theorem startRecord_work (p arm : Bool) (q : Requester) : (d.startRecord b a p arm q).work = d.work := by
  unfold Dev.startRecord
  dsimp only
  rw [work_of_bare (bare_enqueueCommand _ _ _ _)]
  rfl

/-- While P1 sends, the new record's frame waits in the control queue. -/
theorem mgtStarted_ctrlQueue (busy : d.portBusy .p1) :
    (d.mgtStarted b a).lnk.ctrlQueue = putKey b (d.commandFrame b (d.mgtRecord b a)) d.lnk.ctrlQueue := by
  rw [← mgtStarted_record]
  set r := (d.mgtClaimed b).makeRecord b a false false (.block .mgt) with hr
  set x := (d.mgtClaimed b).modBreaker b (fun y => { y with record := some r, nextId := y.nextId + 1 }) with hx
  have busy' : x.portBusy .p1 := ⟨busy.up, busy.tx⟩
  exact congrArg (fun w => w.2.1.2) (enqueueCommand_held (.inl busy') b false (x.commandFrame b r))

end

/-- Settles O44: the request is decided in MGT's favour, and what it starts reports nothing. -/
theorem breakerOperated : Obligations.BreakerOperated := by
  intro s q rest target b a operates named used idle free clear r
  have target_eq : target = a.operateTarget := by rw [named]; cases a <;> rfl
  subst target_eq
  have bare := taking_bare s.dev q rest
  have lnk := taking_lnk s.dev q rest
  have breaker (x : Fin 24) := breaker_of_bare bare x
  have entry := breakerCfg_of_bare bare b
  have record : (s.dev.taking q rest).mgtRecord b a = r := mgtRecord_of_bare b a bare
  generalize hd : s.dev.taking q rest = d at bare lnk breaker entry record
  have accepted : (d.mgtClaimed b).decideRequest (mgtRequest b a) = none := by
    have none : ((d.mgtClaimed b).breaker b).record = none := by rw [mgtClaimed_record, breaker, idle]
    cases a with
    | openIt => exact decideRequest_open none
    | closeIt =>
      refine decideRequest_close_free none ?_
      rw [mgtClaimed_closeBarred, closeBarred_of_bare bare]
      exact not_closeBarred_iff.mpr (clear rfl)
  have answered := opBreaker_accepted (request_accepted (entry ▸ used) (by rw [breaker]; exact free) (by rw [breaker]; exact idle)
    accepted)
  rw [breaker] at answered
  refine ⟨d.mgtStarted b a, operates.exec_quiet (exec_opBreaker a s) (hd ▸ answered) ?_, ?_, fun x other => ?_, ?_,
    fun busy => ?_⟩
  · exact (startRecord_work _ _ _ _ _ _).trans (hd ▸ operates.serves.work)
  · rw [mgtStarted_breaker, breaker, record]
  · rw [mgtStarted_other _ _ _ other, breaker]
  · exact (mgtStarted_shell d b a).trans (shell_of_bare bare)
  · rw [mgtStarted_ctrlQueue d b a ⟨lnk ▸ busy.up, lnk ▸ busy.tx⟩, record, commandFrame_of_bare b bare, lnk]

/-! ## Refusal -/

section
variable {d : Dev} {b : Fin 24}

theorem drain_of_no_work (quiet : d.work = []) (n : Nat) : Dev.drain n d = d := by
  cases n with
  | zero => rfl
  | succ n => simp only [Dev.drain, quiet]

/-- A single report that changes nothing as it is taken leaves the device as it was. -/
theorem flush_push_of_still {r : Report} (quiet : d.work = []) (still : d.deliver r = d) : (d.push r).flush = d := by
  have waits : (d.push r).work = [r] := by rw [Dev.push_work, quiet]; rfl
  have taken : ({ d.push r with work := [] } : Dev) = d := by
    rw [show ({ d.push r with work := [] } : Dev) = { d with work := [] } from rfl, ← quiet]
  rw [Dev.flush, drainLimit, Dev.drain, waits]
  dsimp only
  rw [taken, still, drain_of_no_work quiet]

/-- A claim that is given back leaves the breaker as it was, its release reported (R102). -/
theorem mgtClaimed_dropClaim (free : (d.breaker b).claim = none) (unasked : (d.breaker b).releasePending = false) :
    (d.mgtClaimed b).dropClaim b = d.push (.claimReleased b) := by
  rw [Dev.dropClaim, Dev.mgtClaimed, Dev.modBreaker_twice, Dev.modBreaker_self]
  dsimp only
  rw [← free, ← unasked]

/-- No block acts on the release of a breaker for which nothing waits (R103, R135, R157). -/
theorem Dev.unawaited.released (h : d.unawaited b) : d.deliver (.claimReleased b) = d := by
  have step : d.retryStep b = d := by
    unfold Dev.retryStep
    split
    next t running => exact if_neg fun waits => h.step t running waits.1 waits.2
    · rfl
  rw [Dev.deliver, step]
  unfold Dev.parClaimReleased
  split
  · rfl
  next g named => rw [h.set g named]; rfl

/-- MGT may take the claim on a breaker, and may give it back with nothing changed. -/
def Dev.mgtMayClaim (d : Dev) (b : Fin 24) : Prop :=
  ((d.breaker b).claim = none ∧ d.unawaited b) ∨ (d.breaker b).claim = some .mgt

theorem Dev.mgtMayClaim.free (h : d.mgtMayClaim b) : (d.breaker b).claim = none ∨ (d.breaker b).claim = some .mgt :=
  h.imp And.left id

theorem mgtMayClaim_of_bare {d e : Dev} (h : d.bare = e.bare) (may : e.mgtMayClaim b) : d.mgtMayClaim b := by
  have bare : e.bare.mgtMayClaim b := may.imp (fun ⟨free, h⟩ => ⟨free, h.release, h.step, h.set⟩) id
  rw [← h] at bare
  exact bare.imp (fun ⟨free, h⟩ => ⟨free, h.release, h.step, h.set⟩) id

/-- What a refused request leaves, once what it reports is taken, is the device as it was. -/
theorem Dev.mgtMayClaim.request_refused {a : Action} {r : Refused} (h : d.mgtMayClaim b) (used : (d.breakerCfg b).used = true)
    (quiet : d.work = []) (refused : (d.mgtClaimed b).decideRequest (mgtRequest b a) = some r) :
    ∃ x, d.request (mgtRequest b a) = (.error r, x) ∧ x.flush = d := by
  refine ⟨_, Machine.request_refused used h.free refused, ?_⟩
  rcases h with ⟨free, unawaited⟩ | held
  · rw [if_pos free, mgtClaimed_dropClaim free unawaited.release]
    exact flush_push_of_still quiet unawaited.released
  · rw [if_neg (by rw [held]; nofun), Dev.flush_of_no_work _ quiet]

end

/-- A BREAKER_OPEN or BREAKER_CLOSE that SWM refuses is answered with the refusal's result and changes nothing else. -/
theorem State.operates.breaker_refused {s : State} {q : Request} {rest : List Request} {a : Action} {b : Fin 24}
    (operates : s.operates q rest a.operateTarget b.val) {r : Refused} {x : Dev}
    (refused : (s.dev.taking q rest).request (mgtRequest b a) = (.error r, x)) (still : x.flush = s.dev.taking q rest)
    {k : Nat} (result : r.result = k) :
    exec (rowCommand (10, a.operateTarget)) s = .next (s.withDev ((s.dev.taking q rest).answer q k)) := by
  rw [operates.exec_eq (exec_opBreaker a s), opBreaker_refused refused, still, result]
  rfl

/-- Settles O45: each refusal in its order, and the claim that a refused request took given back. -/
theorem breakerOperateRefused : Obligations.BreakerOperateRefused := by
  intro s q rest target n operates known
  obtain ⟨a, rfl⟩ : ∃ a : Action, target = a.operateTarget := known.elim (fun h => ⟨.openIt, h⟩) (fun h => ⟨.closeIt, h⟩)
  have bare := taking_bare s.dev q rest
  have quiet := operates.serves.work
  refine ⟨fun unknown => ?_, ?_⟩
  · exact operates.exec_quiet (exec_opBreaker a s) (opBreaker_unknown unknown) quiet
  · rintro b rfl
    have entry := breakerCfg_of_bare bare b
    have breaker := breaker_of_bare bare b
    have record : (((s.dev.taking q rest).mgtClaimed b).breaker b).record = (s.dev.breaker b).record := by
      rw [mgtClaimed_record, breaker]
    have still := Dev.flush_of_no_work _ quiet
    refine ⟨fun unused => ?_, fun used ⟨h, held, other⟩ => ?_, fun used ours active => ?_, fun used ours idle close barring => ?_⟩
    · exact operates.breaker_refused (request_unused (entry ▸ unused)) still rfl
    · exact operates.breaker_refused (request_held (entry ▸ used) (breaker ▸ held) other) still rfl
    · obtain ⟨x, refused, back⟩ := (mgtMayClaim_of_bare bare ours).request_refused (entry ▸ used) quiet
        (decideRequest_busy (record ▸ active))
      exact operates.breaker_refused refused back rfl
    · obtain rfl : a = .closeIt := by
        cases a with
        | openIt => cases close
        | closeIt => rfl
      obtain ⟨r, refuses, result⟩ := decideRequest_close_barred (record.trans idle)
        (mgtClaimed_closeBarred.mpr ((closeBarred_of_bare bare b).mpr barring))
      obtain ⟨x, refused, back⟩ := (mgtMayClaim_of_bare bare ours).request_refused (entry ▸ used) quiet refuses
      exact operates.breaker_refused refused back result

end Sys2Proof.Machine

/-!
Buses and generator sides at an invalidation and at an instant (R99, R100), with O58.
-/
namespace Sys2Proof.Machine

/-! ## Turns that touch one entry each -/

section
variable {n : Nat} {β σ γ : Type} {I : β → Prop} {f : Fin n → β → β} {get : β → Fin n → σ} {g : Fin n → σ → σ}

/-- Where each turn changes its own entry alone, every entry ends as its own turn makes it of what it was. -/
theorem forEach_own {xs : List (Fin n)} {b : β} (inv : ∀ y b, I b → I (f y b)) (own : ∀ y b, I b → get (f y b) y = g y (get b y))
    (other : ∀ y b z, z ≠ y → get (f y b) z = get b z) (once : xs.Nodup) (start : I b) (z : Fin n) :
    get (forEach xs f b) z = if z ∈ xs then g z (get b z) else get b z := by
  induction xs generalizing b with
  | nil => rfl
  | cons y ys ih =>
    obtain ⟨fresh, once⟩ := List.nodup_cons.mp once
    rw [forEach_cons, ih once (inv y b start)]
    by_cases same : z = y
    · subst same
      rw [if_neg fresh, if_pos List.mem_cons_self, own z b start]
    · rw [other y b z same]
      simp [same]

theorem forEach_finRange {b : β} (inv : ∀ y b, I b → I (f y b)) (own : ∀ y b, I b → get (f y b) y = g y (get b y))
    (other : ∀ y b z, z ≠ y → get (f y b) z = get b z) (start : I b) (z : Fin n) :
    get (forEach (List.finRange n) f b) z = g z (get b z) := by
  rw [forEach_own inv own other (List.nodup_finRange n) start, if_pos (List.mem_finRange z)]

/-- What the turns list, each at most once and by its own entry, stands in their order at the tail of the list. -/
theorem forEach_lists {log : β → List γ} {p : Fin n → σ → Bool} {r : Fin n → σ → γ} {xs : List (Fin n)} {b : β}
    (inv : ∀ y b, I b → I (f y b))
    (lists : ∀ y b, I b → log (f y b) = log b ++ if p y (get b y) then [r y (get b y)] else [])
    (other : ∀ y b z, z ≠ y → get (f y b) z = get b z) (once : xs.Nodup) (start : I b) :
    log (forEach xs f b) = log b ++ (xs.filter (fun y => p y (get b y))).map (fun y => r y (get b y)) := by
  induction xs generalizing b with
  | nil => simp
  | cons y ys ih =>
    obtain ⟨fresh, once⟩ := List.nodup_cons.mp once
    have later (z : Fin n) (member : z ∈ ys) : get (f y b) z = get b z := other y b z fun same => fresh (same ▸ member)
    have chosen : ys.filter (fun z => p z (get (f y b) z)) = ys.filter (fun z => p z (get b z)) :=
      List.filter_congr fun z member => by rw [later z member]
    have named : (ys.filter (fun z => p z (get b z))).map (fun z => r z (get (f y b) z)) =
        (ys.filter (fun z => p z (get b z))).map (fun z => r z (get b z)) :=
      List.map_congr_left fun z member => by rw [later z (List.mem_of_mem_filter member)]
    rw [forEach_cons, ih once (inv y b start), lists y b start, chosen, named]
    cases h : p y (get b y) <;> simp [h]

end

/-! ## Groups and their voltages (R99) -/

/-- What no turn over buses or generator sides touches. -/
def Dev.besideBuses (d : Dev) : Dev := { d with swm := {}, work := [] }

/-- The three voltages of a group are valid and pass a test against its nominal voltage (R99). -/
def Dev.everyVoltage (d : Dev) (g : Option (Fin 24)) (test : Nat → Nat → Prop) : Prop :=
  ∃ k a b c, g = some k ∧ (d.groupCfg k).voltages = some (a, b, c) ∧
    ∀ q ∈ [a, b, c], (d.quantity q).quality.valid = true ∧ test (d.groupCfg k).nominal (d.quantity q).rms

/-- A state is that of a group's voltages by the thresholds of a bus (R99). -/
def Dev.judgedAs (d : Dev) (g : Option (Fin 24)) (y : Fin 6) (state : BusState) : Prop :=
  (d.everyVoltage g (fun nominal rms => (d.busCfg y).live * nominal ≤ 100 * rms) → state = .live) ∧
  (¬ d.everyVoltage g (fun nominal rms => (d.busCfg y).live * nominal ≤ 100 * rms) →
    d.everyVoltage g (fun nominal rms => 100 * rms ≤ (d.busCfg y).dead * nominal) → state = .dead) ∧
  (¬ d.everyVoltage g (fun nominal rms => (d.busCfg y).live * nominal ≤ 100 * rms) →
    ¬ d.everyVoltage g (fun nominal rms => 100 * rms ≤ (d.busCfg y).dead * nominal) → state = .indeterminate)

section
variable {d : Dev}

/-- A group's phase voltages that an invalidation touches (R100). -/
theorem groupTouched_iff (qs : List (Fin 96)) (g : Option (Fin 24)) : d.groupTouched qs g = true ↔
    ∃ k, g = some k ∧ ∃ a b c, (d.groupCfg k).voltages = some (a, b, c) ∧ (a ∈ qs ∨ b ∈ qs ∨ c ∈ qs) := by
  cases g with
  | none => simp [Dev.groupTouched]
  | some k =>
    cases h : (d.groupCfg k).voltages with
    | none => simp [Dev.groupTouched, roleList, h]
    | some x =>
      obtain ⟨a, b, c⟩ := x
      simp [Dev.groupTouched, roleList, h]

theorem groupState_without {g : Option (Fin 24)} (absent : ∀ k, g = some k → (d.groupCfg k).voltages = none) (live dead : Nat) :
    d.groupState g live dead = .indeterminate := by
  cases g with
  | none => rfl
  | some k => simp only [Dev.groupState, absent k rfl]

theorem groupState_voltages {k : Fin 24} {a b c : Fin 96} (voltages : (d.groupCfg k).voltages = some (a, b, c))
    (live dead : Nat) :
    d.groupState (some k) live dead =
      voltageState ([a, b, c].map (fun q => ((d.quantity q).rms, (d.quantity q).quality))) (d.groupCfg k).nominal live dead := by
  simp only [Dev.groupState, voltages]

theorem everyVoltage_iff {k : Fin 24} {a b c : Fin 96} (voltages : (d.groupCfg k).voltages = some (a, b, c))
    (test : Nat → Nat → Prop) [∀ x y, Decidable (test x y)] : d.everyVoltage (some k) test ↔
      ([a, b, c].map (fun q => ((d.quantity q).rms, (d.quantity q).quality))).all
        (fun v => v.2.valid && decide (test (d.groupCfg k).nominal v.1)) = true := by
  rw [List.all_map, List.all_eq_true]
  constructor
  · rintro ⟨k', a', b', c', named, voltages', every⟩ q member
    obtain rfl := Option.some.inj named
    rw [voltages] at voltages'
    cases voltages'
    simpa using every q member
  · intro every
    exact ⟨k, a, b, c, rfl, voltages, fun q member => by simpa using every q member⟩

/-- LIVE, DEAD or INDETERMINATE by the three voltages (R99). -/
theorem groupState_judged (g : Option (Fin 24)) (y : Fin 6) :
    d.judgedAs g y (d.groupState g (d.busCfg y).live (d.busCfg y).dead) := by
  by_cases present : ∃ k a b c, g = some k ∧ (d.groupCfg k).voltages = some (a, b, c)
  · obtain ⟨k, a, b, c, rfl, voltages⟩ := present
    rw [Dev.judgedAs, groupState_voltages voltages, everyVoltage_iff voltages, everyVoltage_iff voltages, voltageState]
    refine ⟨fun live => if_pos live, fun noLive dead => ?_, fun noLive noDead => ?_⟩
    · rw [if_neg noLive, if_pos dead]
    · rw [if_neg noLive, if_neg noDead]
  · have none (test : Nat → Nat → Prop) : ¬ d.everyVoltage g test :=
      fun ⟨k, a, b, c, named, voltages, _⟩ => present ⟨k, a, b, c, named, voltages⟩
    refine ⟨fun live => absurd live (none _), fun _ dead => absurd dead (none _),
      fun _ _ => groupState_without (fun k named => ?_) _ _⟩
    cases voltages : (d.groupCfg k).voltages with
    | none => rfl
    | some x => exact absurd ⟨k, x.1, x.2.1, x.2.2, named, voltages⟩ present

theorem genOfBreaker_none {b : Fin 24} (none : ∀ g, (d.genCfg g).used = true → (d.genCfg g).breaker ≠ b.val) :
    d.genOfBreaker b = Option.none := by
  simpa [Dev.genOfBreaker, firstId] using none

theorem genOfBreaker_unique {b : Fin 24} {g : Fin 6} (used : (d.genCfg g).used = true) (named : (d.genCfg g).breaker = b.val)
    (unique : ∀ k, (d.genCfg k).used = true → (d.genCfg k).breaker = b.val → k = g) : d.genOfBreaker b = some g := by
  cases found : d.genOfBreaker b with
  | none =>
    have absent := List.find?_eq_none.mp found g (List.mem_finRange g)
    simp [used, named] at absent
  | some k =>
    have names := List.find?_some found
    simp only [Bool.and_eq_true, decide_eq_true_eq] at names
    rw [unique k names.1 names.2]

theorem groupTouched_of_beside {x : Dev} (h : x.besideBuses = d.besideBuses) (qs : List (Fin 96)) :
    x.groupTouched qs = d.groupTouched qs := show x.besideBuses.groupTouched qs = d.besideBuses.groupTouched qs by rw [h]

theorem genSideGroup_of_beside {x : Dev} (h : x.besideBuses = d.besideBuses) (b : Fin 24) :
    x.genSideGroup b = d.genSideGroup b := show x.besideBuses.genSideGroup b = d.besideBuses.genSideGroup b by rw [h]

theorem groupState_of_beside {x : Dev} (h : x.besideBuses = d.besideBuses) : x.groupState = d.groupState :=
  show x.besideBuses.groupState = d.besideBuses.groupState by rw [h]

theorem tab_of_beside {x : Dev} (h : x.besideBuses = d.besideBuses) : x.tab = d.tab :=
  show x.besideBuses.tab = d.besideBuses.tab by rw [h]

theorem breakerCfg_of_beside {x : Dev} (h : x.besideBuses = d.besideBuses) (b : Fin 24) : x.breakerCfg b = d.breakerCfg b :=
  show x.besideBuses.breakerCfg b = d.besideBuses.breakerCfg b by rw [h]

theorem sau_of_beside {x : Dev} (h : x.besideBuses = d.besideBuses) : x.sau = d.sau :=
  show x.besideBuses.sau = d.besideBuses.sau by rw [h]

end

/-! ## An invalidation (R100) -/

section
variable (d : Dev) (qs : List (Fin 96)) (y z : Fin 6) (b x : Fin 24)

theorem setBusState_bus (state : BusState) : (d.setBusState y state).bus z =
    if z = y then { d.bus z with state := state } else d.bus z := by
  unfold Dev.setBusState
  split
  next same =>
    split
    next own => rw [own, ← same]
    · rfl
  · by_cases own : z = y
    · subst own
      rw [if_pos rfl]
      exact Dev.modBus_bus_same _ _ _
    · rw [if_neg own]
      exact Dev.modBus_bus_ne _ _ _ _ own

theorem setBusState_work (state : BusState) : (d.setBusState y state).work =
    d.work ++ if (d.bus y).state = state then [] else [.bus y (d.bus y).state] := by
  unfold Dev.setBusState
  split
  · rw [List.append_nil]
  · rfl

theorem setBusState_beside (state : BusState) : (d.setBusState y state).besideBuses = d.besideBuses ∧
    (d.setBusState y state).swm.breakers = d.swm.breakers := by
  unfold Dev.setBusState
  split <;> exact ⟨rfl, rfl⟩

/-- A bus in its turn of an invalidation. -/
def Dev.touchBus : Dev := if d.groupTouched qs (d.busGroup y) then d.setBusState y .indeterminate else d

/-- A generator side in its turn of an invalidation. -/
def Dev.touchSide : Dev :=
  if d.groupTouched qs (d.genSideGroup b) then d.modBreaker b (fun r => { r with genSide := .indeterminate }) else d

/-- Every bus in rising id. -/
def Dev.touchBuses : Dev := forEach (List.finRange 6) (fun y d => d.touchBus qs y) d

theorem invalidateBuses_eq :
    d.invalidateBuses qs = forEach (List.finRange 24) (fun b d => d.touchSide qs b) (d.touchBuses qs) := rfl

theorem touchBus_beside : (d.touchBus qs y).besideBuses = d.besideBuses ∧ (d.touchBus qs y).swm.breakers = d.swm.breakers := by
  unfold Dev.touchBus
  split
  · exact setBusState_beside _ _ _
  · exact ⟨rfl, rfl⟩

theorem touchBus_other (other : z ≠ y) : (d.touchBus qs y).bus z = d.bus z := by
  unfold Dev.touchBus
  split
  · rw [setBusState_bus, if_neg other]
  · rfl

theorem touchSide_frame : (d.touchSide qs b).besideBuses = d.besideBuses ∧ (d.touchSide qs b).swm.buses = d.swm.buses ∧
    (d.touchSide qs b).work = d.work := by
  unfold Dev.touchSide
  split <;> exact ⟨rfl, rfl, rfl⟩

theorem touchSide_other (other : x ≠ b) : (d.touchSide qs b).breaker x = d.breaker x := by
  unfold Dev.touchSide
  split
  · exact Dev.modBreaker_breaker_ne _ _ _ _ other
  · rfl

/-- The group that measures a bus, by the bus's record and its entry (R98). -/
def Tables.groupOfBus (t : Tables) (y : Fin 6) (r : BusRec) : Option (Fin 24) := toId 24 (r.prior.getD (tget t.buses y).group)

theorem busGroup_of_beside {d e : Dev} (h : e.besideBuses = d.besideBuses) : e.busGroup y = d.tab.groupOfBus y (e.bus y) := by
  rw [← tab_of_beside h]
  rfl

/-- A bus that is touched is INDETERMINATE, and the others stand. -/
theorem touchBuses_bus : (d.touchBuses qs).bus y =
    if d.groupTouched qs (d.busGroup y) then { d.bus y with state := .indeterminate } else d.bus y := by
  refine forEach_finRange (I := fun x : Dev => x.besideBuses = d.besideBuses) (get := Dev.bus) (f := fun y d => d.touchBus qs y)
    (g := fun y r => if d.groupTouched qs (d.tab.groupOfBus y r) then { r with state := .indeterminate } else r)
    (fun y x h => (touchBus_beside x qs y).1.trans h) (fun y x h => ?_) (fun y x z other => touchBus_other x qs y z other) rfl y
  rw [Dev.touchBus, groupTouched_of_beside h, busGroup_of_beside y h]
  split
  · rw [setBusState_bus, if_pos rfl]
  · rfl

/-- Each bus that changes is reported, in rising id. -/
theorem touchBuses_work : (d.touchBuses qs).work = d.work ++
    ((List.finRange 6).filter (fun y => decide ((d.bus y).state ≠ ((d.touchBuses qs).bus y).state))).map
      (fun y => .bus y (d.bus y).state) := by
  have listed := forEach_lists (I := fun x : Dev => x.besideBuses = d.besideBuses) (get := Dev.bus)
    (f := fun y d => d.touchBus qs y) (log := Dev.work)
    (p := fun y r => d.groupTouched qs (d.tab.groupOfBus y r) && decide (r.state ≠ .indeterminate))
    (r := fun y r => .bus y r.state) (xs := List.finRange 6) (b := d)
    (fun y x h => (touchBus_beside x qs y).1.trans h) (fun y x h => ?_) (fun y x z other => touchBus_other x qs y z other)
    (List.nodup_finRange 6) rfl
  · refine Eq.trans listed (congrArg (d.work ++ List.map _ ·) (List.filter_congr fun y _ => ?_))
    rw [touchBuses_bus, show d.tab.groupOfBus y (d.bus y) = d.busGroup y from rfl]
    cases d.groupTouched qs (d.busGroup y) <;> simp
  · rw [Dev.touchBus, groupTouched_of_beside h, busGroup_of_beside y h]
    cases d.groupTouched qs (d.tab.groupOfBus y (x.bus y)) with
    | false => simp
    | true => simp [setBusState_work]

theorem touchBuses_frame : (d.touchBuses qs).besideBuses = d.besideBuses ∧ (d.touchBuses qs).swm.breakers = d.swm.breakers := by
  unfold Dev.touchBuses
  exact ⟨forEach_frame Dev.besideBuses (fun y d => (touchBus_beside d qs y).1) _ d,
    forEach_frame (fun d => d.swm.breakers) (fun y d => (touchBus_beside d qs y).2) _ d⟩

/-- The turns of the generator sides leave buses and reports alone. -/
theorem invalidateBuses_frame : (d.invalidateBuses qs).swm.buses = (d.touchBuses qs).swm.buses ∧
    (d.invalidateBuses qs).work = (d.touchBuses qs).work := by
  rw [invalidateBuses_eq]
  exact ⟨forEach_frame (fun d => d.swm.buses) (fun b d => (touchSide_frame d qs b).2.1) _ _,
    forEach_frame Dev.work (fun b d => (touchSide_frame d qs b).2.2) _ _⟩

theorem invalidateBuses_bus : (d.invalidateBuses qs).bus y = (d.touchBuses qs).bus y := by
  rw [Dev.bus, (invalidateBuses_frame d qs).1]
  rfl

theorem invalidateBuses_breaker : (d.invalidateBuses qs).breaker b =
    if d.groupTouched qs (d.genSideGroup b) then { d.breaker b with genSide := .indeterminate } else d.breaker b := by
  obtain ⟨beside, breakers⟩ := touchBuses_frame d qs
  have start (b : Fin 24) : (d.touchBuses qs).breaker b = d.breaker b := congrArg (tget · b) breakers
  rw [invalidateBuses_eq, ← start]
  refine forEach_finRange (I := fun x : Dev => x.besideBuses = d.besideBuses) (get := Dev.breaker)
    (f := fun b d => d.touchSide qs b)
    (g := fun b r => if d.groupTouched qs (d.genSideGroup b) then { r with genSide := .indeterminate } else r)
    (fun b x h => (touchSide_frame x qs b).1.trans h) (fun b x h => ?_)
    (fun b x z other => touchSide_other x qs b z other) beside b
  rw [Dev.touchSide, groupTouched_of_beside h, genSideGroup_of_beside h]
  split
  · exact Dev.modBreaker_breaker_same _ _ _
  · rfl

end

/-! ## An instant (R99) -/

section
variable (d : Dev) (y z : Fin 6) (b x : Fin 24)

/-- The state of a breaker's generator side by the results of the last instant (R99). -/
def Dev.genSideState : BusState :=
  match (d.breakerCfg b).bus1 with
  | some y => d.groupState (d.genSideGroup b) (d.busCfg y).live (d.busCfg y).dead
  | none => .indeterminate

theorem genSideState_of_beside {e : Dev} (h : e.besideBuses = d.besideBuses) : e.genSideState b = d.genSideState b :=
  show e.besideBuses.genSideState b = d.besideBuses.genSideState b by rw [h]

theorem evaluateGenSide_eq : d.evaluateGenSide b =
    if (d.breakerCfg b).isGen then d.modBreaker b (fun r => { r with genSide := d.genSideState b }) else d := rfl

theorem evaluateBus_frame : (d.evaluateBus y).besideBuses = d.besideBuses ∧ (d.evaluateBus y).swm.breakers = d.swm.breakers :=
  setBusState_beside d y _

theorem evaluateBus_bus : (d.evaluateBus y).bus z = if z = y then
    { d.bus z with state := d.groupState (d.busGroup z) (d.busCfg z).live (d.busCfg z).dead, lastAt := d.sau.inst }
    else d.bus z := by
  unfold Dev.evaluateBus
  by_cases own : z = y
  · subst own
    rw [Dev.modBus_bus_same, setBusState_bus, if_pos rfl, if_pos rfl]
  · rw [Dev.modBus_bus_ne _ _ _ _ own, setBusState_bus, if_neg own, if_neg own]

/-- Every bus in rising id. -/
def Dev.evaluateEachBus : Dev := forEach (List.finRange 6) (fun y d => d.evaluateBus y) d

theorem evaluateBuses_eq : d.evaluateBuses = forEach (List.finRange 24) (fun b d => d.evaluateGenSide b) d.evaluateEachBus := rfl

theorem evaluateEachBus_frame : d.evaluateEachBus.besideBuses = d.besideBuses ∧
    d.evaluateEachBus.swm.breakers = d.swm.breakers := by
  unfold Dev.evaluateEachBus
  exact ⟨forEach_frame Dev.besideBuses (fun y d => (evaluateBus_frame d y).1) _ d,
    forEach_frame (fun d => d.swm.breakers) (fun y d => (evaluateBus_frame d y).2) _ d⟩

theorem evaluateEachBus_bus : d.evaluateEachBus.bus y = { d.bus y with
    state := d.groupState (d.busGroup y) (d.busCfg y).live (d.busCfg y).dead, lastAt := d.sau.inst } := by
  refine forEach_finRange (I := fun x : Dev => x.besideBuses = d.besideBuses) (get := Dev.bus) (f := fun y d => d.evaluateBus y)
    (g := fun y r => { r with
      state := d.groupState (d.tab.groupOfBus y r) (d.busCfg y).live (d.busCfg y).dead, lastAt := d.sau.inst })
    (fun y x h => (evaluateBus_frame x y).1.trans h) (fun y x h => ?_) (fun y x z other => ?_) rfl y
  · rw [evaluateBus_bus, if_pos rfl, groupState_of_beside h, busGroup_of_beside y h, sau_of_beside h, Dev.busCfg, tab_of_beside h]
    rfl
  · rw [evaluateBus_bus, if_neg other]

theorem evaluateGenSide_frame : (d.evaluateGenSide b).besideBuses = d.besideBuses ∧
    (d.evaluateGenSide b).swm.buses = d.swm.buses := by
  rw [evaluateGenSide_eq]
  split <;> exact ⟨rfl, rfl⟩

theorem evaluateBuses_buses : d.evaluateBuses.swm.buses = d.evaluateEachBus.swm.buses := by
  rw [evaluateBuses_eq]
  exact forEach_frame (fun d => d.swm.buses) (fun b d => (evaluateGenSide_frame d b).2) _ _

theorem evaluateBuses_bus : d.evaluateBuses.bus y = { d.bus y with
    state := d.groupState (d.busGroup y) (d.busCfg y).live (d.busCfg y).dead, lastAt := d.sau.inst } := by
  rw [← evaluateEachBus_bus]
  exact congrArg (tget · y) (evaluateBuses_buses d)

theorem evaluateBuses_breaker : d.evaluateBuses.breaker b =
    if (d.breakerCfg b).isGen then { d.breaker b with genSide := d.genSideState b } else d.breaker b := by
  obtain ⟨beside, breakers⟩ := evaluateEachBus_frame d
  have start (b : Fin 24) : d.evaluateEachBus.breaker b = d.breaker b := congrArg (tget · b) breakers
  rw [evaluateBuses_eq, ← start]
  refine forEach_finRange (I := fun x : Dev => x.besideBuses = d.besideBuses) (get := Dev.breaker)
    (f := fun b d => d.evaluateGenSide b)
    (g := fun b r => if (d.breakerCfg b).isGen then { r with genSide := d.genSideState b } else r)
    (fun b x h => (evaluateGenSide_frame x b).1.trans h) (fun b x h => ?_) (fun b x z other => ?_) beside b
  · rw [evaluateGenSide_eq, genSideState_of_beside d b h, breakerCfg_of_beside h]
    split
    · exact Dev.modBreaker_breaker_same _ _ _
    · rfl
  · rw [evaluateGenSide_eq]
    split
    · exact Dev.modBreaker_breaker_ne _ _ _ _ other
    · rfl

end

/-- Settles O58: each bus and each generator side by its own turn, at an invalidation and at an instant. -/
theorem invalidationOfBuses : Obligations.InvalidationOfBuses := by
  intro d qs
  have hit (g : Option (Fin 24)) := groupTouched_iff (d := d) qs g
  refine ⟨fun y touched => ?_, fun y apart => ?_, fun b touched => ?_, fun b apart => ?_, ?_, fun y => ?_, fun y => ?_,
    fun b gen => ⟨?_, fun y side => ⟨fun none => ?_, fun g used named unique => ?_⟩, fun absent => ?_⟩, fun b noGen => ?_⟩
  · rw [invalidateBuses_bus, touchBuses_bus, if_pos ((hit _).mpr touched)]
  · rw [invalidateBuses_bus, touchBuses_bus, if_neg (mt (hit _).mp apart)]
  · rw [invalidateBuses_breaker, if_pos ((hit _).mpr touched)]
  · rw [invalidateBuses_breaker, if_neg (mt (hit _).mp apart)]
  · rw [(invalidateBuses_frame d qs).2, touchBuses_work]
    simp only [invalidateBuses_bus]
  · rw [evaluateBuses_bus]
    exact ⟨rfl, rfl⟩
  · rw [evaluateBuses_bus]
    exact groupState_judged _ y
  · exact ⟨_, by rw [evaluateBuses_breaker, if_pos gen]⟩
  · rw [evaluateBuses_breaker, if_pos gen, Dev.genSideState, side, Dev.genSideGroup, genOfBreaker_none none]
    rfl
  · rw [evaluateBuses_breaker, if_pos gen, Dev.genSideState, side, Dev.genSideGroup, genOfBreaker_unique used named unique]
    exact groupState_judged _ y
  · rw [evaluateBuses_breaker, if_pos gen, Dev.genSideState, absent]
  · rw [evaluateBuses_breaker, noGen]
    exact if_neg Bool.false_ne_true

end Sys2Proof.Machine

/-!
The demand on PAR's sets (R157 to R160, R173): what CHG's asking for sets, and what PAR does as it meets it, leaves alone.
-/
namespace Sys2Proof.Machine

/-! ## Sets that start (R157, R158) -/

section
variable (d : Dev) (g : Fin 6)

theorem besideSets_push (r : Report) : (d.push r).besideSets = d.besideSets := rfl

theorem besideSets_toDeadBusWait : (d.toDeadBusWait g).besideSets = d.besideSets :=
  (besideSets_push _ _).trans (besideSets_moveGen d g _ _)

theorem besideSets_toSyncWait : (d.toSyncWait g).besideSets = d.besideSets :=
  (besideSets_push _ _).trans (besideSets_moveGen d g _ _)

theorem besideSets_routeGen : (d.routeGen g).besideSets = d.besideSets := by
  unfold Dev.routeGen
  split
  · exact besideSets_toDeadBusWait d g
  · exact besideSets_toSyncWait d g
  · rfl

theorem besideSets_judgeStarting : (d.judgeStarting g).besideSets = d.besideSets :=
  besideSets_ite ((besideSets_routeGen _ g).trans (besideSets_moveGen d g _ _))

theorem besideSets_claimGen : (d.claimGen g).besideSets = d.besideSets := by
  unfold Dev.claimGen
  split
  · rfl
  next b _ =>
    have asked := besideSets_of_shell (shell_claim d b .par)
    split
    next d' granted =>
      rw [besideSets_judgeStarting, besideSets_modGen]
      rwa [granted] at asked
    next d' _ refused =>
      rw [besideSets_modGen]
      rwa [refused] at asked

theorem besideSets_toStarting : (d.toStarting g).besideSets = d.besideSets :=
  (besideSets_claimGen _ g).trans (besideSets_moveGen d g _ _)

/-! ## Sets that are shed (R160, R173) -/

theorem besideSets_toUnloading : (d.toUnloading g).besideSets = d.besideSets := by
  unfold Dev.toUnloading
  dsimp only
  split <;> exact besideSets_moveGen d g _ _

theorem besideSets_shedSet : (d.shedSet g).besideSets = d.besideSets := by
  have shed : (if d.genBusIslanded then d.toOpening g else d.toUnloading g).besideSets = d.besideSets := by
    split
    · exact besideSets_toOpening d g
    · exact besideSets_toUnloading d g
  unfold Dev.shedSet
  split
  · exact besideSets_toStopping d g
  iterate 4 exact besideSets_toCooldown d g
  iterate 2 exact shed
  · rfl

/-! ## The demand (R159, R160) -/

theorem besideSets_meetDemand : d.meetDemand.besideSets = d.besideSets :=
  besideSets_ite
    ((forEach_frame Dev.besideSets (fun k x => besideSets_ite (besideSets_shedSet x k)) _ _).trans
      (forEach_frame Dev.besideSets (fun k x => besideSets_ite (besideSets_toStarting x k)) _ _))

theorem besideSets_returnToBus : (d.returnToBus g).besideSets = d.besideSets := by
  unfold Dev.returnToBus
  split
  · exact besideSets_moveGen d g _ _
  · exact besideSets_moveGen d g _ _
  · rfl

theorem besideSets_setDemand (n : Nat) (start : Bool) : (d.setDemand n start).besideSets = d.besideSets :=
  (besideSets_meetDemand _).trans
    (besideSets_ite (forEach_frame Dev.besideSets (fun k x => besideSets_returnToBus x k) _ d))

/-- A LOSS cause moves UNLOADING sets alone (R173). -/
theorem besideSets_lossCause : d.lossCause.besideSets = d.besideSets :=
  forEach_frame Dev.besideSets (fun k x => besideSets_ite (besideSets_moveGen x k _ _)) _ d

end

/-! ## What a view says -/

theorem chg_of_besideSets {d e : Dev} (h : d.besideSets = e.besideSets) : d.chg = e.chg :=
  show d.besideSets.chg = e.besideSets.chg by rw [h]

theorem tab_of_besideSets {d e : Dev} (h : d.besideSets = e.besideSets) : d.tab = e.tab :=
  show d.besideSets.tab = e.besideSets.tab by rw [h]

theorem periodic_of_besideSets {d e : Dev} (h : d.besideSets = e.besideSets) : d.par.periodic = e.par.periodic :=
  show d.besideSets.par = e.besideSets.par by rw [h]

end Sys2Proof.Machine

/-!
The ends of a scheme (R139 to R141) and what a step of it leaves alone.
-/
namespace Sys2Proof.Machine

/-! ## The ends of a scheme (R139, R140) -/

section
variable (d : Dev)

theorem bare_noticeEnd : d.noticeEnd.bare = d.bare := by
  unfold Dev.noticeEnd
  split
  · exact bare_queueNotice _ _ _ _
  · rfl

/-- The releases that CHG asks for empty its claim set and change SWM's breakers and the reports alone. -/
theorem releaseClaims_shell : d.releaseClaims.shell = (d.modChg (fun c => { c with claims := [] })).shell :=
  forEach_frame Dev.shell (fun b x => shell_releaseClaim x b .chg) _ _

theorem shell_modChg (f : Chg → Chg) : (d.modChg f).shell = d.shell.modChg f := rfl

/-- A withdrawal of CHG's bus request changes PAR and the reports alone. -/
theorem withdrawBusRequest_shell : d.withdrawBusRequest.shell = { d.shell with par := d.withdrawBusRequest.par } := by
  unfold Dev.withdrawBusRequest
  dsimp only
  split <;> rfl

theorem withdrawBusRequest_busWaiting : d.withdrawBusRequest.par.busWaiting = none := by
  unfold Dev.withdrawBusRequest
  dsimp only
  split <;> rfl

theorem withdrawBusRequest_periodic : d.withdrawBusRequest.par.periodic = d.par.periodic := by
  unfold Dev.withdrawBusRequest
  dsimp only
  split <;> rfl

/-- CHG as its scheme ends FAILED (R140). -/
def Chg.failed (c : Chg) (reason : FailReason) (refusal : Refused) : Chg :=
  { c with state := .failed, claims := [], pending := []
           transfer := c.transfer.map (fun t => { t with result := .failed, reason := reason, refusal := refusal }) }

/-- What follows the releases as a scheme fails: the error, the notice and the state (R140). -/
def Dev.failureTold : Dev :=
  ((d.modChg (fun c => { c with pending := [] })).recordError .schemeFailed d.schemeId).noticeEnd.modChg
    (fun c => { c with state := .failed })

theorem failureTold_shell : d.failureTold.shell = (d.modChg (fun c => { c with state := .failed, pending := [] })).shell := by
  have bare := (bare_noticeEnd _).trans (bare_recordError (d.modChg (fun c => { c with pending := [] })) .schemeFailed d.schemeId)
  exact congrArg (fun x : Dev => { x with chg := { x.chg with state := .failed } }) (shell_of_bare bare)

/-- The transfer record with its scheme ended FAILED. -/
def Dev.transferFailed (reason : FailReason) (refusal : Refused) : Dev :=
  d.modTransfer (fun t => { t with result := .failed, reason := reason, refusal := refusal })

/-- The device of a failing scheme once its bus request is withdrawn and its claims are asked back. -/
def Dev.failureReleased (reason : FailReason) (refusal : Refused) : Dev :=
  (d.transferFailed reason refusal).withdrawBusRequest.releaseClaims

theorem failScheme_eq (reason : FailReason) (refusal : Refused) :
    d.failScheme reason refusal = (d.failureReleased reason refusal).failureTold := rfl

/-- What a scheme that fails changes beside LNK, MGT and what SWM keeps of breakers: CHG, and PAR's bus request. -/
theorem failScheme_shell (reason : FailReason) (refusal : Refused) : (d.failScheme reason refusal).shell =
    { d.shell with chg := d.chg.failed reason refusal, par := (d.transferFailed reason refusal).withdrawBusRequest.par } := by
  rw [failScheme_eq, failureTold_shell, Dev.failureReleased, shell_modChg, releaseClaims_shell, shell_modChg, withdrawBusRequest_shell]
  rfl

/-- The scheme that runs has come to its END step (R139). -/
theorem endScheme_plain (e : StepEntry) (plain : e.cond ≠ 1) : d.endScheme e =
    (d.modTransfer (fun t => { t with result := .done })).noticeEnd.releaseClaims := by
  rw [Dev.endScheme, if_neg plain]

end
end Sys2Proof.Machine

/-!
What the steps of a scheme leave alone (R131, R135 to R139): all but LNK, MGT, PAR's sets and the synchroniser, SWM's breakers and store
writes, the cause table, and of CHG its state, its claims and the step that its transfer record shows.
-/
namespace Sys2Proof.Machine

/-! ## The view -/

/-- What a transfer record keeps from its scheme's start to its end (R131). -/
def Transfer.opening (t : Transfer) : Transfer :=
  { scheme := t.scheme, cause := t.cause, startMs := t.startMs, startInst := t.startInst, entry := t.entry, stepStart := 0 }

/-- What the steps of a scheme leave alone of CHG. -/
def Chg.besideSteps (c : Chg) : Chg := { c with state := .idle, claims := [], transfer := c.transfer.map Transfer.opening }

/-- What no step of a scheme touches. -/
def Dev.besideSteps (d : Dev) : Dev :=
  { d.besideSets with ties := 0, tab := { d.tab with causes := Vector.replicate 5 255 }, chg := d.chg.besideSteps }

theorem besideSteps_of_besideSets {d e : Dev} (h : d.besideSets = e.besideSets) : d.besideSteps = e.besideSteps :=
  show d.besideSets.besideSteps = e.besideSets.besideSteps by rw [h]

theorem besideSteps_of_shell {d e : Dev} (h : d.shell = e.shell) : d.besideSteps = e.besideSteps :=
  besideSteps_of_besideSets (besideSets_of_shell h)

theorem besideSteps_shell (d : Dev) : d.shell.besideSteps = d.besideSteps := rfl

theorem besideSteps_of_bare {d e : Dev} (h : d.bare = e.bare) : d.besideSteps = e.besideSteps :=
  besideSteps_of_shell (shell_of_bare h)

theorem pending_of_besideSteps {d e : Dev} (h : d.besideSteps = e.besideSteps) : d.chg.pending = e.chg.pending :=
  show d.besideSteps.chg.pending = e.besideSteps.chg.pending by rw [h]

theorem cap_of_besideSteps {d e : Dev} (h : d.besideSteps = e.besideSteps) : d.cap = e.cap :=
  show d.besideSteps.cap = e.besideSteps.cap by rw [h]

theorem readings_of_besideSteps {d e : Dev} (h : d.besideSteps = e.besideSteps) :
    d.prot = e.prot ∧ d.meas = e.meas ∧ d.sau = e.sau :=
  show d.besideSteps.prot = e.besideSteps.prot ∧ d.besideSteps.meas = e.besideSteps.meas ∧ d.besideSteps.sau = e.besideSteps.sau
    by rw [h]; exact ⟨rfl, rfl, rfl⟩

/-- A scheme's transfer record goes on being that of its start. -/
theorem transfer_of_besideSteps {d e : Dev} (h : d.besideSteps = e.besideSteps) {t : Transfer} (transfer : e.chg.transfer = some t) :
    ∃ x, d.chg.transfer = some x ∧ x.opening = t.opening := by
  have same : d.chg.transfer.map Transfer.opening = e.chg.transfer.map Transfer.opening :=
    show d.besideSteps.chg.transfer = e.besideSteps.chg.transfer by rw [h]
  rw [transfer] at same
  exact Option.map_eq_some_iff.mp same

/-! ## The steps -/

section
variable (d : Dev) (b : Fin 24)

theorem besideSteps_modTransfer {f : Transfer → Transfer} (keeps : ∀ t, (f t).opening = t.opening) :
    (d.modTransfer f).besideSteps = d.besideSteps := by
  have same : (d.chg.transfer.map f).map Transfer.opening = d.chg.transfer.map Transfer.opening := by
    rw [Option.map_map]
    exact congrArg (d.chg.transfer.map ·) (funext keeps)
  exact congrArg (fun x => { d.besideSteps with chg := { d.besideSteps.chg with transfer := x } }) same

theorem besideSteps_waitBreaker (busy : Bool) (deadline : Count32) : (d.waitBreaker busy deadline).besideSteps = d.besideSteps :=
  besideSteps_modTransfer d fun _ => rfl

theorem besideSteps_takeAnswer (x : Answer × Dev) : (Dev.takeAnswer x).2.besideSteps = x.2.besideSteps := by
  unfold Dev.takeAnswer
  split
  · exact besideSteps_modTransfer _ fun _ => rfl
  · exact besideSteps_waitBreaker _ _ _
  · exact besideSteps_waitBreaker _ _ _
  · rfl

theorem besideSteps_askStep (a : Action) : (d.askStep b a).2.besideSteps = d.besideSteps :=
  (besideSteps_takeAnswer _).trans (besideSteps_of_shell (shell_request d _))

theorem besideSteps_referenceIsFirst (s1 s2 : SourceSet) : (d.referenceIsFirst s1 s2).2.besideSteps = d.besideSteps := by
  unfold Dev.referenceIsFirst
  split <;> rfl

theorem besideSteps_placeBusRequest (r : BusRequest) : (d.placeBusRequest r).besideSteps = d.besideSteps := rfl

theorem besideSteps_placeSync : (d.placeSync b).2.besideSteps = d.besideSteps := by
  refine (besideSteps_placeBusRequest _ _).trans ((besideSteps_modTransfer _ ?_).trans (besideSteps_referenceIsFirst d _ _))
  exact fun _ => rfl

theorem besideSteps_closeSync : (d.closeSync b).2.besideSteps = d.besideSteps := by
  unfold Dev.closeSync
  split
  · rfl
  · split
    · exact (besideSteps_askStep _ b .closeIt).trans (besideSteps_modTransfer d fun _ => rfl)
    · split
      · exact besideSteps_modTransfer d fun _ => rfl
      · exact besideSteps_placeSync d b

theorem besideSteps_proceed (kind : Nat) : (d.proceed kind b).2.besideSteps = d.besideSteps := by
  unfold Dev.proceed
  split
  · split
    · rfl
    · exact besideSteps_askStep d b .openIt
  · split
    · rfl
    · exact besideSteps_askStep d b .closeIt
  · exact besideSteps_closeSync d b

theorem besideSteps_claimStep (t : Transfer) : (d.claimStep t b).2.besideSteps = d.besideSteps := by
  have asked := besideSteps_of_shell (shell_claim d b .chg)
  unfold Dev.claimStep
  split
  next d' granted =>
    rw [granted] at asked
    exact (besideSteps_proceed _ b _).trans asked
  next refused =>
    rw [refused] at asked
    exact (besideSteps_waitBreaker _ _ _).trans asked

theorem besideSteps_releaseClaims : d.releaseClaims.besideSteps = d.besideSteps := by
  rw [besideSteps_of_shell (releaseClaims_shell d)]
  rfl

theorem besideSteps_followOn (e : StepEntry) :
    (if e.cond = 1 then (toId 5 e.object).elim d (fun c => d.writeCause c e.link) else d).besideSteps = d.besideSteps := by
  split
  · cases toId 5 e.object <;> rfl
  · rfl

theorem besideSteps_endScheme (e : StepEntry) : (d.endScheme e).besideSteps = d.besideSteps := by
  refine (besideSteps_releaseClaims _).trans ((besideSteps_of_bare (bare_noticeEnd _)).trans
    ((besideSteps_modTransfer _ ?_).trans (besideSteps_followOn d e)))
  exact fun _ => rfl

/-- A step that begins, of whatever kind, touches nothing beside the steps. -/
theorem besideSteps_beginStep : d.beginStep.2.besideSteps = d.besideSteps := by
  have begun : (d.modTransfer (fun t => t.begin d.now)).besideSteps = d.besideSteps := besideSteps_modTransfer d fun _ => rfl
  unfold Dev.beginStep
  dsimp only
  generalize d.modTransfer (fun t => t.begin d.now) = x at begun ⊢
  split
  · exact begun
  · split
    · exact (besideSteps_claimStep _ _ _).trans begun
    · split
      · split <;> exact begun
      · exact begun
      · rw [besideSteps_of_besideSets (besideSets_setDemand _ _ _), begun]
      · rw [besideSteps_of_besideSets (besideSets_setDemand _ _ _), begun]
      · rw [besideSteps_endScheme, begun]

end

/-! ## The sequencer, with no cause pending -/

theorem Chg.failed_besideSteps {c : Chg} (none : c.pending = []) (reason : FailReason) (refusal : Refused) :
    (c.failed reason refusal).besideSteps = c.besideSteps := by
  have transfer : (c.failed reason refusal).transfer.map Transfer.opening = c.transfer.map Transfer.opening := by
    rw [Chg.failed, Option.map_map]
    rfl
  rw [Chg.besideSteps, transfer, Chg.besideSteps, none]
  rfl

section
variable {d : Dev}

theorem besideSteps_failScheme (none : d.chg.pending = []) (reason : FailReason) (refusal : Refused) :
    (d.failScheme reason refusal).besideSteps = d.besideSteps :=
  calc (d.failScheme reason refusal).besideSteps
    _ = { d.besideSteps with
          chg := (d.chg.failed reason refusal).besideSteps
          par := (d.transferFailed reason refusal).withdrawBusRequest.par.periodic } :=
        by rw [← besideSteps_shell, failScheme_shell]; rfl
    _ = d.besideSteps := by
        rw [Chg.failed_besideSteps none, withdrawBusRequest_periodic]
        rfl

theorem pickPending_nil (cs : List Cause) : d.pickPending cs [] = (none, []) := by
  induction cs with
  | nil => rfl
  | cons c cs ih => exact ih

/-- With no cause pending, a scheme that ends DONE leaves CHG IDLE (R134, R139). -/
theorem advance_ended_idle (none : d.chg.pending = []) (n : Nat) :
    Dev.advance (n + 1) (.ended, d) = d.modChg (fun c => { c with state := .idle }) := by
  have taken : d.pendingTaken = d := by
    rw [Dev.pendingTaken, none, List.filter_nil, pickPending_nil, ← none]
    rfl
  rw [Dev.advance_ended, none, List.filter_nil, pickPending_nil, taken]

/-- However far the sequencer goes, it stays with the transfer record that it began with. -/
theorem besideSteps_advance (n : Nat) (x : Progress × Dev) (none : x.2.chg.pending = []) :
    (Dev.advance n x).besideSteps = x.2.besideSteps := by
  induction n generalizing x with
  | zero => rfl
  | succ n ih =>
    obtain ⟨p, d⟩ := x
    cases p with
    | waiting => rw [Dev.advance_waiting]
    | failed r f => exact besideSteps_failScheme none r f
    | completed =>
      have next : (Dev.beginStep (d.modTransfer (fun t => { t with index := t.index + 1 }))).2.besideSteps = d.besideSteps :=
        (besideSteps_beginStep _).trans (besideSteps_modTransfer d fun _ => rfl)
      rw [Dev.advance_completed, ih _ ((pending_of_besideSteps next).trans none), next]
    | ended =>
      rw [advance_ended_idle none]
      rfl

theorem besideSteps_goOn (x : Progress × Dev) (none : x.2.chg.pending = []) : (Dev.goOn x).besideSteps = x.2.besideSteps :=
  besideSteps_advance advanceLimit x none

end
end Sys2Proof.Machine

/-!
RUN_SCHEME, CHG_RESET, CHG_INHIBIT and CHG_RELEASE (R146, R147), and the start of a scheme (R131, R132), with O47 and O48.
-/
namespace Sys2Proof.Machine

/-- The blocks beside LNK and MGT, and the stored tables. -/
theorem blocks_of_bare {d e : Dev} (h : d.bare = e.bare) :
    d.chg = e.chg ∧ d.tab = e.tab ∧ d.swm = e.swm ∧ d.par = e.par ∧ d.prot = e.prot ∧ d.meas = e.meas :=
  show d.bare.chg = e.bare.chg ∧ d.bare.tab = e.bare.tab ∧ d.bare.swm = e.bare.swm ∧ d.bare.par = e.bare.par ∧
    d.bare.prot = e.bare.prot ∧ d.bare.meas = e.bare.meas by rw [h]; exact ⟨rfl, rfl, rfl, rfl, rfl, rfl⟩

/-! ## The start of a scheme (R131, R132) -/

section
variable (d : Dev) (s : Fin 8) (c : Option Cause)

/-- The transfer record with which a stored scheme starts. -/
def Dev.schemeStart : Transfer :=
  { scheme := s, cause := c, startMs := d.now, startInst := d.sau.inst, entry := tget d.tab.schemes s, stepStart := d.now }

/-- The device with a scheme started and CAP triggered for it, but for the notice. -/
def Dev.schemeStarted : Dev :=
  (d.modChg (fun x => { x with state := .running, transfer := some (d.schemeStart s c) })).trigger .transfer s.val

theorem schemeStarted_of_bare {e : Dev} (h : d.bare = e.bare) : (d.schemeStarted s c).bare = (e.schemeStarted s c).bare :=
  show (d.bare.schemeStarted s c).bare = (e.bare.schemeStarted s c).bare by rw [h]

theorem startScheme_bare : (d.startScheme s c).bare = (d.schemeStarted s c).bare :=
  congrArg (fun x : Dev => x.trigger .transfer s.val) (bare_queueNotice
    (d.modChg (fun x => { x with state := .running, transfer := some (d.schemeStart s c) })) 3 s.val (beBytes 1 (causeCode c) ++ [0, 0, 0]))

variable {d s c}

/-- With no cause pending, a scheme that is run touches beside its steps what its start touches. -/
theorem runScheme_besideSteps (none : d.chg.pending = []) :
    (d.runScheme s c).besideSteps = (d.schemeStarted s c).besideSteps := by
  have begun : (d.startScheme s c).beginStep.2.besideSteps = (d.schemeStarted s c).besideSteps :=
    (besideSteps_beginStep _).trans (besideSteps_of_bare (startScheme_bare d s c))
  rw [Dev.runScheme, besideSteps_goOn _ ((pending_of_besideSteps begun).trans none), begun]

/-- The transfer record after a scheme is run is that of its start. -/
theorem runScheme_transfer (none : d.chg.pending = []) :
    ∃ t, (d.runScheme s c).chg.transfer = some t ∧ t.opening = (d.schemeStart s c).opening :=
  transfer_of_besideSteps (runScheme_besideSteps none) rfl

end

/-! ## A step that begins (R138) -/

section
variable {d : Dev} {t : Transfer}

theorem begin_delay (kind : t.step.kind = 5) (now : Count32) : t.begin now = { t with
    stepStart := now, waitEnd := none, busy := false, cmdId := none, set1 := {}, set2 := {}, phase := .timing
    deadline := some (after now t.step.time) } := by
  simp [Transfer.begin, kind]

theorem modTransfer_some (transfer : d.chg.transfer = some t) (f : Transfer → Transfer) :
    d.modTransfer f = d.modChg (fun c => { c with transfer := some (f t) }) := by
  rw [Dev.modTransfer, Dev.modChg, transfer]
  rfl

/-- A DELAY step begins, and waits for its deadline. -/
theorem beginStep_delay (transfer : d.chg.transfer = some t) (kind : t.step.kind = 5) :
    d.beginStep = (.waiting, d.modChg (fun c => { c with transfer := some (t.begin d.now) })) := by
  have unnamed : t.step.breaker = none := by simp [StepEntry.breaker, kind]
  have step : (t.begin d.now).step = t.step := rfl
  simp only [Dev.beginStep, modTransfer_some transfer, Dev.modChg_chg, step, unnamed, kind]

/-- An END step begins, and its scheme ends. -/
theorem beginStep_end (transfer : d.chg.transfer = some t) (kind : t.step.kind = 8) :
    d.beginStep = (.ended, (d.modChg (fun c => { c with transfer := some (t.begin d.now) })).endScheme t.step) := by
  have unnamed : t.step.breaker = none := by simp [StepEntry.breaker, kind]
  have step : (t.begin d.now).step = t.step := rfl
  simp only [Dev.beginStep, modTransfer_some transfer, Dev.modChg_chg, step, unnamed, kind]

end

/-! ## RUN_SCHEME (R146) -/

section
variable (d : Dev)

theorem opRun_known (x : Fin 8) : d.opRun x.val = plain (d.opRunScheme x) := by
  unfold Dev.opRun
  rw [toId_val]

theorem opRun_unknown {n : Nat} (none : 8 ≤ n) : d.opRun n = (refuse resInvalid, d) := by
  unfold Dev.opRun
  rw [toId_none none]

variable {d}

theorem opRunScheme_idle (idle : d.chg.state = .idle) (x : Fin 8) : d.opRunScheme x = (resOk, d.runScheme x none) := by
  unfold Dev.opRunScheme
  rw [idle]

theorem opRunScheme_running (running : d.chg.state = .running) (x : Fin 8) : d.opRunScheme x = (resBusy, d) := by
  unfold Dev.opRunScheme
  rw [running]

theorem opRunScheme_notPermitted (state : d.chg.state = .settling ∨ d.chg.state = .failed ∨ d.chg.state = .inhibited) (x : Fin 8) :
    d.opRunScheme x = (resNotPermitted, d) := by
  unfold Dev.opRunScheme
  rcases state with state | state | state <;> rw [state]

/-- The device with a scheme started and its first step begun, but for the notice. -/
def Dev.firstBegun (d : Dev) (x : Fin 8) (c : Option Cause) : Dev :=
  (d.schemeStarted x c).modChg (fun g => { g with transfer := some ((d.schemeStart x c).begin d.now) })

theorem firstBegun_of_bare {d e : Dev} (h : d.bare = e.bare) (x : Fin 8) (c : Option Cause) :
    (d.firstBegun x c).bare = (e.firstBegun x c).bare :=
  show (d.bare.firstBegun x c).bare = (e.bare.firstBegun x c).bare by rw [h]

/-- A scheme whose first step is a DELAY waits at it, and has touched nothing more but LNK and MGT. -/
theorem runScheme_delay {x : Fin 8} (kind : (tget (tget d.tab.schemes x).steps 0).kind = 5) (c : Option Cause) :
    (d.runScheme x c).bare = (d.firstBegun x c).bare := by
  have started := startScheme_bare d x c
  have transfer : (d.startScheme x c).chg.transfer = some (d.schemeStart x c) :=
    (congrArg (fun y => y.chg.transfer) started :)
  have now : (d.startScheme x c).now = d.now := (congrArg Dev.now started :)
  have step : (d.schemeStart x c).step.kind = 5 := kind
  rw [Dev.runScheme, beginStep_delay transfer step, Dev.goOn, Dev.advance_waiting, now]
  exact congrArg (fun y : Dev => y.modChg (fun g => { g with transfer := some ((d.schemeStart x c).begin d.now) })) started

end

/-- Settles O47: in IDLE the stored scheme is run, whose steps leave alone what its start has made; a first DELAY ends the run. -/
theorem runSchemeStarts : Obligations.RunSchemeStarts := by
  intro s q rest n operates d
  have bare : d.bare = s.dev.bare := taking_bare s.dev q rest
  obtain ⟨chg, tab, -⟩ := blocks_of_bare bare
  have quiet : d.work = [] := operates.serves.work
  refine ⟨fun none => operates.exec_quiet rfl (opRun_unknown d none) quiet, ?_⟩
  rintro x rfl
  have acts := opRun_known d x
  refine ⟨fun running => ?_, fun state => ?_, fun idle none => ?_, fun idle kind => ?_⟩
  · rw [opRunScheme_running (chg ▸ running)] at acts
    exact operates.exec_quiet rfl acts quiet
  · rw [opRunScheme_notPermitted (chg ▸ state)] at acts
    exact operates.exec_quiet rfl acts quiet
  · rw [opRunScheme_idle (chg ▸ idle)] at acts
    have ran := operates.exec_eq (c := .runScheme) (act := Dev.opRun) rfl
    rw [show Dev.opRun _ _ = _ from acts] at ran
    have kept : (d.runScheme x Option.none).besideSteps = (s.dev.schemeStarted x Option.none).besideSteps :=
      (runScheme_besideSteps (chg ▸ none)).trans (besideSteps_of_bare (schemeStarted_of_bare d x _ bare))
    obtain ⟨t, transfer, opening⟩ := transfer_of_besideSteps kept rfl
    exact ⟨d.runScheme x Option.none, ran,
      ⟨t, transfer, congrArg Transfer.scheme opening, congrArg Transfer.cause opening, congrArg Transfer.startMs opening,
        congrArg Transfer.startInst opening, congrArg Transfer.entry opening⟩,
      cap_of_besideSteps kept, (readings_of_besideSteps kept :)⟩
  · rw [opRunScheme_idle (chg ▸ idle)] at acts
    have left : (d.runScheme x none).bare = (s.dev.firstBegun x none).bare :=
      (runScheme_delay (tab ▸ kind) none).trans (firstBegun_of_bare bare x none)
    have still : (d.runScheme x none).work = [] := (work_of_bare left).trans operates.serves.quiet
    obtain ⟨begun, blocks⟩ := blocks_of_bare left
    refine ⟨d.runScheme x none, operates.exec_quiet rfl acts still, ?_, (blocks :)⟩
    rw [begun]
    exact congrArg (fun t => { s.dev.chg with state := .running, transfer := some t })
      (begin_delay (t := s.dev.schemeStart x none) kind s.dev.now)

/-! ## The inhibit flag (R146, R147) -/

section
variable {d : Dev}

theorem opChg_object {n : Nat} (object : n ≠ 0) (act : Dev → Nat × Dev) : opChg d n act = (refuse resInvalid, d) := if_pos object

theorem opChg_zero (act : Dev → Nat × Dev) : opChg d 0 act = plain (act d) := rfl

/-- CHG with its inhibit flag and its state given. -/
def Dev.inhibited (d : Dev) (i : Bool) (x : ChgState) : Dev := { d with chg := { d.chg with inhibit := i, state := x } }

theorem opChgReset_other (state : d.chg.state ≠ .failed) : d.opChgReset = (resOk, d) := by
  rw [Dev.opChgReset, if_neg state]

theorem opChgReset_failed (state : d.chg.state = .failed) : d.opChgReset = (resOk, d.inhibited d.chg.inhibit d.restState) := by
  rw [Dev.opChgReset, if_pos state]
  rfl

theorem opInhibit_running (state : d.chg.state = .running) : d.opInhibit = (resBusy, d) := by
  rw [Dev.opInhibit, state]

theorem opInhibit_other (state : d.chg.state ≠ .running) :
    d.opInhibit = (resOk, d.inhibited true (if d.chg.state = .idle then .inhibited else d.chg.state)) := by
  unfold Dev.opInhibit
  split
  next running => exact absurd running state
  next idle => rw [if_pos idle]; rfl
  next other => rw [if_neg other]; rfl

theorem opRelease_eq :
    d.opRelease = (resOk, d.inhibited false (if d.chg.state = .inhibited ∧ d.mode ≠ .service then .idle else d.chg.state)) := by
  unfold Dev.opRelease
  by_cases state : d.chg.state = .inhibited
  · by_cases mode : d.mode = .service <;> simp [Dev.inhibited, Dev.restState, Dev.modChg, state, mode]
  · simp [Dev.inhibited, Dev.modChg, state]

end

/-- Settles O48: each target's decision by CHG's state, which reports nothing. -/
theorem changeoverInhibitAndReset : Obligations.ChangeoverInhibitAndReset := by
  intro s q rest target n operates d sets
  have bare : d = { s.dev with mgt := d.mgt } := taking_eq s.dev q rest
  have quiet : d.work = [] := operates.serves.work
  have chg : d.chg = s.dev.chg := by rw [bare]
  have mode : d.mode = s.dev.mode := by rw [bare]
  refine ⟨?_, ?_, ?_, ?_, ?_, ?_⟩
  · rintro object (rfl | rfl | rfl)
    · exact operates.exec_quiet rfl (opChg_object object _) quiet
    · exact operates.exec_quiet rfl (opChg_object object _) quiet
    · exact operates.exec_quiet rfl (opChg_object object _) quiet
  · rintro rfl rfl state
    have acts := opChg_zero (d := d) Dev.opChgReset
    rw [opChgReset_other (chg ▸ state)] at acts
    exact operates.exec_quiet rfl acts quiet
  · rintro rfl rfl state
    have acts := opChg_zero (d := d) Dev.opChgReset
    rw [opChgReset_failed (chg ▸ state), Dev.restState, chg, mode] at acts
    exact operates.exec_quiet rfl acts quiet
  · rintro rfl rfl state
    have acts := opChg_zero (d := d) Dev.opInhibit
    rw [opInhibit_running (chg ▸ state)] at acts
    exact operates.exec_quiet rfl acts quiet
  · rintro rfl rfl state
    have acts := opChg_zero (d := d) Dev.opInhibit
    rw [opInhibit_other (chg ▸ state), chg] at acts
    exact operates.exec_quiet rfl acts quiet
  · rintro rfl rfl
    have acts := opChg_zero (d := d) Dev.opRelease
    rw [opRelease_eq, chg, mode] at acts
    exact operates.exec_quiet rfl acts quiet

end Sys2Proof.Machine

/-!
The timers of sources and of scheme steps (R124, R126, R132, R135, R137, R138), with O25 and O26.
-/
namespace Sys2Proof.Machine

/-! ## Sources (R121, R124) -/

section
variable (d : Dev) (u : Utility)

theorem setSource_own (state : SourceState) (timer : SourceTimer) : (d.setSource u state timer).chg.source u =
    { d.chg.source u with state := state, timer := timer, changeMs := d.now, changeInst := d.sau.inst } := by
  cases u <;> rfl

theorem setSource_other (state : SourceState) (timer : SourceTimer) :
    (d.setSource u state timer).chg.source u.other = d.chg.source u.other := by
  cases u <;> rfl

variable {d} in
theorem source_of_fixedChg {e : Dev} (h : d.fixedChg = e.fixedChg) : d.chg.source u = e.chg.source u := by
  cases u
  · exact congrArg (fun v => v.2.1) h
  · exact congrArg (fun v => v.2.2.1) h

/-! ## Causes (R126, R132) -/

/-- What has been handed to PAR of a cause (R126). -/
def Dev.causeHanded (c : Cause) : Dev := if c.isLoss then d.lossCause else d

theorem raiseCause_eq (c : Cause) : d.raiseCause c = (d.causeHanded c).takeCause c := rfl

theorem besideSets_causeHanded (c : Cause) : (d.causeHanded c).besideSets = d.besideSets :=
  besideSets_ite (besideSets_lossCause d)

/-- Neither the sources nor the fixed part change as a cause is raised. -/
theorem fixedChg_raiseCause (c : Cause) : (d.raiseCause c).fixedChg = d.fixedChg := (fixedChg_inner d.fixedChg).raiseCause c rfl

variable {d}

/-- In INHIBITED nothing of CHG's follows from a cause. -/
theorem raiseCause_inhibited (inhibited : d.chg.state = .inhibited) (c : Cause) : (d.raiseCause c).chg = d.chg := by
  have chg := chg_of_besideSets (besideSets_causeHanded d c)
  rw [raiseCause_eq, Dev.takeCause, chg, inhibited]
  exact chg

/-- In IDLE a cause runs the scheme that its entry names. -/
theorem raiseCause_idle (idle : d.chg.state = .idle) (none : d.chg.pending = []) {c : Cause} {x : Fin 8}
    (names : d.causeScheme c = some x) :
    ∃ t, (d.raiseCause c).chg.transfer = some t ∧ t.opening = (d.schemeStart x (some c)).opening := by
  have handed := besideSets_causeHanded d c
  have chg := chg_of_besideSets handed
  have named : (d.causeHanded c).causeScheme c = some x := by rw [Dev.causeScheme, tab_of_besideSets handed]; exact names
  have start : (d.causeHanded c).schemeStart x (some c) = d.schemeStart x (some c) :=
    show (d.causeHanded c).besideSets.schemeStart x (some c) = d.besideSets.schemeStart x (some c) by rw [handed]
  rw [raiseCause_eq, Dev.takeCause, chg, idle]
  dsimp only
  rw [named, ← start]
  exact runScheme_transfer (chg ▸ none)

end

/-! ## A source timer (R124) -/

section
variable {d : Dev} {u : Utility} {loss : Bool} {e : Count32}

/-- The device with a source's timer run out. -/
def Dev.sourceTimedOut (d : Dev) (u : Utility) (loss : Bool) : Dev := d.setSource u (if loss then .failed else .healthy) .none

/-- The cause that a source's timer raises (R126). -/
def Dev.timerCause (d : Dev) (u : Utility) (loss : Bool) : Cause :=
  if loss then (if d.sourceDown u.other then .lossBoth else if u = .a then .lossA else .lossB)
  else if u = .a then .returnA else .returnB

theorem lossOf_eq (d : Dev) (u : Utility) :
    d.lossOf u = if d.sourceDown u.other then .lossBoth else if u = .a then .lossA else .lossB := by
  cases u <;> rfl

theorem expireSourceTimer_due (timer : (d.chg.source u).timer = .running loss e) (due : reached e d.now = true) :
    d.expireSourceTimer u = (d.sourceTimedOut u loss).raiseCause (d.timerCause u loss) := by
  have down : (d.sourceTimedOut u loss).sourceDown u.other = d.sourceDown u.other := by
    rw [Dev.sourceDown, Dev.sourceTimedOut, setSource_other, Dev.sourceDown]
  rw [Dev.expireSourceTimer, timer]
  dsimp only
  rw [if_pos due]
  cases loss with
  | false => cases u <;> rfl
  | true =>
    rw [Dev.timerCause, ← down, if_pos rfl, if_pos rfl, ← lossOf_eq]
    rfl

end

/-- Settles O25: the timer's source changes its state, and its cause is raised. -/
theorem sourceTimerExpires : Obligations.SourceTimerExpires := by
  intro s u loss e run timer due
  set x := s.dev.sourceTimedOut u loss with hx
  have expired := expireSourceTimer_due timer due
  have kept := fixedChg_raiseCause x (s.dev.timerCause u loss)
  have fixed : (x.raiseCause (s.dev.timerCause u loss)).fixed = x.fixed := congrArg Prod.fst kept
  have ran : exec (.sourceTimerExpiry u) s = .next (s.withDev (x.raiseCause (s.dev.timerCause u loss)).flush) := by
    rw [← expired]
    exact State.whenRunning_eq run (fun d => (d.expireSourceTimer u).flush)
  have state : x.chg.state = s.dev.chg.state := by rw [hx]; cases u <;> rfl
  have transfer : x.chg.transfer = s.dev.chg.transfer := by rw [hx]; cases u <;> rfl
  have pending : x.chg.pending = s.dev.chg.pending := by rw [hx]; cases u <;> rfl
  refine ⟨_, ran, ?_, ?_, (meas_of_fixed fixed :), (congrArg Fixed.prot fixed :), fun inhibited => ?_, ?_⟩
  · rw [source_of_fixedChg u kept, hx, Dev.sourceTimedOut, setSource_own]
  · rw [source_of_fixedChg u.other kept, hx, Dev.sourceTimedOut, setSource_other]
  · rw [raiseCause_inhibited (state.trans inhibited)]
    exact ⟨state.trans inhibited, transfer⟩
  · rintro c k idle none rfl names
    obtain ⟨t, started, opening⟩ := raiseCause_idle (d := x) (state.trans idle) (pending.trans none) names
    exact ⟨t, started, congrArg Transfer.scheme opening, congrArg Transfer.cause opening, congrArg Transfer.entry opening,
      congrArg Transfer.startMs opening, congrArg Transfer.startInst opening⟩

/-! ## The deadlines of steps (R135, R137, R138) -/

section
variable {d : Dev} {t : Transfer}

theorem running_some (running : d.running = some t) : d.chg.state = .running ∧ d.chg.transfer = some t := by
  unfold Dev.running at running
  split at running
  next state => exact ⟨state, running⟩
  · cases running

theorem goOn_fail (d : Dev) (reason : FailReason) : Dev.goOn (Progress.fail reason, d) = d.failScheme reason .none :=
  Dev.advance_failed 399 reason .none d

theorem expireStepWait_due (running : d.running = some t) (phase : t.phase = .waitingBreaker)
    (due : reached? t.waitEnd d.now = true) :
    d.expireStepWait = d.failScheme (if t.busy then .breakerBusy else .claimConflict) .none := by
  simp only [Dev.expireStepWait, running, phase, due, goOn_fail, decide_true, Bool.and_self, if_true]

theorem expireStepSync_due (running : d.running = some t) (kind : t.step.kind = 3) (due : reached? t.deadline d.now = true) :
    d.expireStepSync = d.failScheme .syncTimeout .none := by
  simp only [Dev.expireStepSync, running, kind, due, goOn_fail, decide_true, Bool.and_self, if_true]

theorem expireAwait_alone (running : d.running = some t) (kind : t.step.kind = 4) (phase : t.phase = .waiting)
    (link : t.step.link = 255) (due : reached? t.deadline d.now = true) :
    d.expireAwait = d.failScheme .awaitTimeout .none := by
  simp only [Dev.expireAwait, running, kind, phase, link, due, goOn_fail, decide_true, Bool.and_self, if_true]

/-- What a scheme that fails leaves of CHG, of PAR's bus request, and of the blocks that it does not touch. -/
theorem failScheme_effect (d : Dev) (reason : FailReason) (refusal : Refused) :
    (d.failScheme reason refusal).chg = d.chg.failed reason refusal ∧ (d.failScheme reason refusal).par.busWaiting = none ∧
      (d.failScheme reason refusal).meas = d.meas ∧ (d.failScheme reason refusal).prot = d.prot ∧
      (d.failScheme reason refusal).tab = d.tab := by
  have shell := failScheme_shell d reason refusal
  refine ⟨(congrArg Dev.chg shell :), ?_, (congrArg Dev.meas shell :), (congrArg Dev.prot shell :), (congrArg Dev.tab shell :)⟩
  exact (congrArg (fun x => x.par.busWaiting) shell).trans (withdrawBusRequest_busWaiting _)

/-- The scheme goes on at another of its steps. -/
def Dev.atStep (d : Dev) (i : Nat) : Dev := d.modTransfer (fun t => { t with index := i })

theorem atStep_eq (running : d.running = some t) (i : Nat) :
    d.atStep i = d.modChg (fun c => { c with transfer := some { t with index := i } }) :=
  modTransfer_some (running_some running).2 _

theorem expireDelay_due (running : d.running = some t) (kind : t.step.kind = 5) (due : reached? t.deadline d.now = true) :
    d.expireDelay = Dev.advance 399 (d.atStep (t.index + 1)).beginStep := by
  have next : d.modTransfer (fun t => { t with index := t.index + 1 }) = d.atStep (t.index + 1) := by
    rw [atStep_eq running, modTransfer_some (running_some running).2]
  have goes : Dev.goOn (.completed, d) = Dev.advance 399 (d.atStep (t.index + 1)).beginStep := by
    rw [← next]
    exact Dev.advance_completed 399 d
  simp only [Dev.expireDelay, running, kind, due, goes, decide_true, Bool.and_self, if_true]

theorem expireAwait_linked (running : d.running = some t) (kind : t.step.kind = 4) (phase : t.phase = .waiting)
    (link : t.step.link ≠ 255) (due : reached? t.deadline d.now = true) :
    d.expireAwait = Dev.advance 400 (d.atStep t.step.link).beginStep := by
  simp only [Dev.expireAwait, running, kind, phase, link, due, decide_true, Bool.and_self, if_true, if_false]
  rfl

/-- An END step with no follow-on and no cause pending ends its scheme DONE and leaves CHG IDLE (R139). -/
theorem advance_endStep (transfer : d.chg.transfer = some t) (kind : t.step.kind = 8) (cond : t.step.cond = 0)
    (none : d.chg.pending = []) (n : Nat) : (Dev.advance (n + 1) d.beginStep).shell =
      { d.shell with chg := { d.chg with
          state := .idle, claims := [], transfer := some { t.begin d.now with result := .done } } } := by
  set x := d.modChg (fun c => { c with transfer := some (t.begin d.now) }) with hx
  have pending : (x.endScheme t.step).chg.pending = [] :=
    (pending_of_besideSteps (besideSteps_endScheme x t.step)).trans none
  have done : x.modTransfer (fun t => { t with result := .done }) =
      d.modChg (fun c => { c with transfer := some { t.begin d.now with result := .done } }) := rfl
  rw [beginStep_end transfer kind, advance_ended_idle pending, shell_modChg, endScheme_plain x _ (by rw [cond]; decide),
    releaseClaims_shell, shell_modChg, shell_of_bare (bare_noticeEnd _), done]
  rfl

end

/-- Settles O26: a deadline that ends the scheme fails it; one that goes on to an END step ends it DONE. -/
theorem stepDeadlines : Obligations.StepDeadlines := by
  refine ⟨fun s t c reason run running deadline => ?_, fun s t c i run running due deadline kind cond none => ?_⟩
  · have fails : exec c s = .next (s.withDev (s.dev.failScheme reason .none).flush) := by
      rcases deadline with ⟨rfl, phase, due, rfl⟩ | ⟨rfl, kind, due, rfl⟩ | ⟨rfl, kind, phase, link, due, rfl⟩
      · rw [← expireStepWait_due running phase due]
        exact State.whenRunning_eq run (fun d => d.expireStepWait.flush)
      · rw [← expireStepSync_due running kind due]
        exact State.whenRunning_eq run (fun d => d.expireStepSync.flush)
      · rw [← expireAwait_alone running kind phase link due]
        exact State.whenRunning_eq run (fun d => d.expireAwait.flush)
    obtain ⟨chg, waiting, meas, prot, tab⟩ := failScheme_effect s.dev reason .none
    refine ⟨_, fails, ?_, ?_, ?_, ?_, waiting, meas, prot, tab⟩
    · rw [chg]; rfl
    · rw [chg]; rfl
    · rw [chg]; rfl
    · rw [chg, Chg.failed, (running_some running).2]
      rfl
  · obtain ⟨n, goes⟩ : ∃ n, exec c s = .next (s.withDev (Dev.advance (n + 1) (s.dev.atStep i.val).beginStep).flush) := by
      rcases deadline with ⟨rfl, delay, next⟩ | ⟨rfl, await, phase, link, next⟩
      · refine ⟨398, ?_⟩
        rw [next, ← expireDelay_due running delay due]
        exact State.whenRunning_eq run (fun d => d.expireDelay.flush)
      · refine ⟨399, ?_⟩
        rw [next, ← expireAwait_linked running await phase link due]
        exact State.whenRunning_eq run (fun d => d.expireAwait.flush)
    have step : ({ t with index := i.val } : Transfer).step = tget t.entry.steps i := by
      rw [Transfer.step, toId_val]
    have shell := advance_endStep (d := s.dev.atStep i.val) (t := { t with index := i.val }) (by rw [atStep_eq running]; rfl)
      (step ▸ kind) (step ▸ cond) (by rw [atStep_eq running]; exact none) n
    rw [atStep_eq running] at shell goes
    have chg := (congrArg Dev.chg shell :)
    refine ⟨_, goes, ?_, ?_, ?_, ?_, (congrArg Dev.tab shell :), (congrArg Dev.par shell :), (congrArg Dev.meas shell :)⟩
    · exact (congrArg Chg.state chg :)
    · exact (congrArg Chg.claims chg :)
    · exact (congrArg Chg.pending chg :).trans none
    · exact ⟨_, (congrArg Chg.transfer chg :), rfl, rfl, rfl, rfl⟩

end Sys2Proof.Machine

/-!
The end of settling (R122, R125, R148, R176, R180), with O28.
-/
namespace Sys2Proof.Machine

/-! ## PAR is told (R176, R180) -/

section
variable (d : Dev)

/-- PAR with settling ended and its first period set, before its sets are judged. -/
def Dev.parSettled : Dev := { d with par := { d.par with settled := true, firstPeriod := nextHundred d.now, periods := 0 } }

theorem besideSets_settleGen (g : Fin 6) : (d.settleGen g).besideSets = d.besideSets := by
  unfold Dev.settleGen
  split
  · rfl
  · refine besideSets_ite ?_
    split
    · exact (besideSets_claimGen _ g).trans (besideSets_moveGen d g _ _)
    · exact besideSets_ite ((besideSets_claimGen _ g).trans (besideSets_toCooldown d g))

theorem besideSets_demand (n : Nat) : ({ d with par := { d.par with demand := n } } : Dev).besideSets = d.besideSets := rfl

theorem besideSets_settlePar : d.settlePar.besideSets = d.parSettled.besideSets := by
  unfold Dev.settlePar
  dsimp only
  rw [besideSets_meetDemand, besideSets_demand]
  exact forEach_frame Dev.besideSets (fun g x => besideSets_settleGen x g) _ d.parSettled

theorem periods_of_periodic {p r : Par} (h : p.periodic = r.periodic) :
    p.settled = r.settled ∧ p.periods = r.periods ∧ p.firstPeriod = r.firstPeriod :=
  show p.periodic.settled = r.periodic.settled ∧ p.periodic.periods = r.periodic.periods ∧
    p.periodic.firstPeriod = r.periodic.firstPeriod by rw [h]; exact ⟨rfl, rfl, rfl⟩

/-- The next multiple of 100 ms of a clock that does not wrap before it. -/
theorem nextHundred_toNat {t : Count32} (room : t.toNat + 100 < 2 ^ 32) : (nextHundred t).toNat = (t.toNat / 100 + 1) * 100 := by
  have small : (t.toNat / 100 + 1) * 100 < 2 ^ 32 := by omega
  rw [nextHundred, if_pos small, BitVec.toNat_ofNat, Nat.mod_eq_of_lt small]

end

/-! ## What the sources are judged by (R122) -/

/-- A source's record without all but its marks. -/
def SourceRec.marked (r : SourceRec) : SourceRec := { marks := r.marks }

/-- What the changes of source records leave alone: all but LNK, MGT, and of the sources' records all but their marks. -/
def Dev.besideSources (d : Dev) : Dev :=
  { d.bare with chg := { d.chg with sourceA := d.chg.sourceA.marked, sourceB := d.chg.sourceB.marked } }

theorem judgement_of_besideSources {d e : Dev} (h : d.besideSources = e.besideSources) (u : Utility) :
    d.judgement u = e.judgement u := by
  have own (x : Dev) : x.judgement u = x.besideSources.judgement u := by cases u <;> rfl
  rw [own, own e, h]

theorem judgement_of_besideSets {d e : Dev} (h : d.besideSets = e.besideSets) (u : Utility) : d.judgement u = e.judgement u :=
  show d.besideSets.judgement u = e.besideSets.judgement u by rw [h]

theorem restState_of_besideSets {d e : Dev} (h : d.besideSets = e.besideSets) : d.restState = e.restState :=
  show d.besideSets.restState = e.besideSets.restState by rw [h]

theorem meas_of_besideSets {d e : Dev} (h : d.besideSets = e.besideSets) : d.meas = e.meas :=
  show d.besideSets.meas = e.besideSets.meas by rw [h]

theorem besideSources_of_bare {d e : Dev} (h : d.bare = e.bare) : d.besideSources = e.besideSources :=
  show d.bare.besideSources = e.bare.besideSources by rw [h]

theorem blocks_of_besideSources {d e : Dev} (h : d.besideSources = e.besideSources) :
    d.chg.state = e.chg.state ∧ d.par = e.par ∧ d.meas = e.meas :=
  show d.besideSources.chg.state = e.besideSources.chg.state ∧ d.besideSources.par = e.besideSources.par ∧
    d.besideSources.meas = e.besideSources.meas by rw [h]; exact ⟨rfl, rfl, rfl⟩

section
variable (d : Dev) (u v : Utility)

theorem besideSources_modSource {f : SourceRec → SourceRec} (marks : ∀ r, (f r).marks = r.marks) :
    (d.modChg (fun c => c.modSource u f)).besideSources = d.besideSources := by
  have same (r : SourceRec) : (f r).marked = r.marked := congrArg (fun n => ({ marks := n } : SourceRec)) (marks r)
  cases u
  · exact congrArg (fun r => { d.besideSources with chg := { d.besideSources.chg with sourceA := r } }) (same d.chg.sourceA)
  · exact congrArg (fun r => { d.besideSources with chg := { d.besideSources.chg with sourceB := r } }) (same d.chg.sourceB)

theorem besideSources_setSource (state : SourceState) (timer : SourceTimer) :
    (d.setSource u state timer).besideSources = d.besideSources := besideSources_modSource d u fun _ => rfl

theorem source_modSource (f : SourceRec → SourceRec) :
    (d.modChg (fun c => c.modSource u f)).chg.source v = if v = u then f (d.chg.source v) else d.chg.source v := by
  cases u <;> cases v <;> rfl

theorem source_of_bare {d e : Dev} (h : d.bare = e.bare) (v : Utility) : d.chg.source v = e.chg.source v :=
  show d.bare.chg.source v = e.bare.chg.source v by rw [h]

/-! ## An INDETERMINATE line bus (R125) -/

/-- The noting of an INDETERMINATE line bus changes a source's noted flag at most, beside LNK and MGT. -/
theorem noteIndeterminate_bare :
    ∃ n : SourceRec → Bool, (d.noteIndeterminate u).bare =
      (d.modChg (fun c => c.modSource u (fun r => { r with noted := n r }))).bare := by
  have still : d = d.modChg (fun c => c.modSource u (fun r => { r with noted := r.noted })) := by cases u <;> rfl
  unfold Dev.noteIndeterminate
  split
  · exact ⟨fun r => r.noted, congrArg Dev.bare still⟩
  · split
    · split
      · exact ⟨fun r => r.noted, congrArg Dev.bare still⟩
      · exact ⟨fun _ => true, congrArg (fun x : Dev => x.modChg (fun c => c.modSource u (fun r => { r with noted := true })))
          (bare_recordError d _ _)⟩
    · exact ⟨fun _ => false, rfl⟩

theorem noteIndeterminate_besideSources : (d.noteIndeterminate u).besideSources = d.besideSources := by
  obtain ⟨n, bare⟩ := noteIndeterminate_bare d u
  rw [besideSources_of_bare bare]
  exact besideSources_modSource d u fun _ => rfl

theorem noteIndeterminate_state : ((d.noteIndeterminate u).chg.source v).state = (d.chg.source v).state := by
  obtain ⟨n, bare⟩ := noteIndeterminate_bare d u
  rw [source_of_bare bare, source_modSource]
  split <;> rfl

/-! ## The sources without their delays (R148) -/

/-- The state that a source takes at the end of settling. -/
def Judgement.settles (j : Judgement) (state : SourceState) : SourceState :=
  match j with
  | .healthy => .healthy
  | .unhealthy => .failed
  | .undetermined => state

theorem settleSource_besideSources : (d.settleSource u).besideSources = d.besideSources := by
  have judged : (d.modChg (fun c => c.modSource u (fun r => { r with judgement := d.judgement u }))).besideSources =
      d.besideSources := besideSources_modSource d u fun _ => rfl
  unfold Dev.settleSource
  dsimp only
  split
  · exact (besideSources_setSource _ u _ _).trans judged
  · exact (besideSources_setSource _ u _ _).trans judged
  · exact judged

theorem settleSource_state : ((d.settleSource u).chg.source v).state =
    if v = u then (d.judgement u).settles (d.chg.source v).state else (d.chg.source v).state := by
  unfold Dev.settleSource
  dsimp only
  split
  next judged =>
    rw [Dev.setSource, source_modSource, source_modSource, judged]
    split <;> rfl
  next judged =>
    rw [Dev.setSource, source_modSource, source_modSource, judged]
    split <;> rfl
  next judged =>
    rw [source_modSource, judged]
    split <;> rfl

/-- Both sources set without their delays. -/
def Dev.sourcesSettled : Dev := (d.settleSource .a).settleSource .b

theorem sourcesSettled_besideSources : d.sourcesSettled.besideSources = d.besideSources :=
  (settleSource_besideSources _ .b).trans (settleSource_besideSources d .a)

theorem sourcesSettled_state :
    (d.sourcesSettled.chg.source u).state = (d.judgement u).settles (d.chg.source u).state := by
  have judged := judgement_of_besideSources (settleSource_besideSources d .a)
  rw [Dev.sourcesSettled, settleSource_state, settleSource_state, judged]
  cases u <;> rfl

variable {d} in
theorem settleCauses_none (sound : ∀ u, (d.chg.source u).state ≠ .failed) : d.settleCauses = d := by
  unfold Dev.settleCauses
  split
  next a _ => exact absurd a (sound .a)
  next a _ => exact absurd a (sound .a)
  next b _ => exact absurd b (sound .b)
  · rfl

/-! ## The end of settling -/

/-- The device as CHG has left SETTLING and noted the line buses, before its sources are set. -/
def Dev.settlingLeft : Dev :=
  ((d.settlePar.modChg (fun c => { c with state := d.settlePar.restState })).noteIndeterminate .a).noteIndeterminate .b

variable {d} in
theorem endSettling_due (settling : d.chg.state = .settling)
    (ends : d.settled = true ∨ reached (after 0 5000) d.now = true) :
    d.endSettling = d.settlingLeft.sourcesSettled.settleCauses := by
  have cond : (decide (d.chg.state = .settling) && (d.settled || reached (after 0 5000) d.now)) = true := by
    simpa [settling] using ends
  exact if_pos cond

theorem settlingLeft_besideSources :
    d.settlingLeft.besideSources = (d.settlePar.modChg (fun c => { c with state := d.settlePar.restState })).besideSources :=
  (noteIndeterminate_besideSources _ .b).trans (noteIndeterminate_besideSources _ .a)

theorem judgement_parSettled : d.parSettled.judgement u = d.judgement u := rfl

theorem judgement_modState (state : ChgState) :
    (d.modChg (fun c => { c with state := state })).judgement u = d.judgement u := by
  cases u <;> rfl

theorem settlingLeft_judgement : d.settlingLeft.judgement u = d.judgement u := by
  rw [judgement_of_besideSources (settlingLeft_besideSources d), judgement_modState,
    judgement_of_besideSets (besideSets_settlePar d), judgement_parSettled]

theorem source_modState (state : ChgState) :
    (d.modChg (fun c => { c with state := state })).chg.source u = d.chg.source u := by
  cases u <;> rfl

theorem settlingLeft_state : (d.settlingLeft.chg.source u).state = (d.chg.source u).state := by
  rw [Dev.settlingLeft, noteIndeterminate_state, noteIndeterminate_state, source_modState,
    chg_of_besideSets (besideSets_settlePar d)]
  rfl

/-- What has come of CHG's state, of PAR and of MEAS. -/
theorem settlingLeft_blocks : d.settlingLeft.chg.state = d.restState ∧
    d.settlingLeft.par.periodic = d.parSettled.par.periodic ∧ d.settlingLeft.meas = d.meas := by
  have told := besideSets_settlePar d
  obtain ⟨state, par, meas⟩ := blocks_of_besideSources (settlingLeft_besideSources d)
  rw [state, par, meas, Dev.modChg_chg, Dev.modChg_par, Dev.modChg_meas, restState_of_besideSets told, periodic_of_besideSets told,
    meas_of_besideSets told]
  exact ⟨rfl, rfl, rfl⟩

end

/-- Settles O28: PAR is told, CHG takes its state at rest, and each source is set by its judgement, which raises no cause. -/
theorem settlingEnds : Obligations.SettlingEnds := by
  intro s run settling ends judged unknown room
  obtain ⟨state, par, meas⟩ := blocks_of_besideSources (sourcesSettled_besideSources s.dev.settlingLeft)
  obtain ⟨rest, periodic, read⟩ := settlingLeft_blocks s.dev
  obtain ⟨settled, periods, first⟩ := periods_of_periodic periodic
  have states (u : Utility) : (s.dev.settlingLeft.sourcesSettled.chg.source u).state = (s.dev.judgement u).settles .unknown := by
    rw [sourcesSettled_state, settlingLeft_judgement, settlingLeft_state, unknown]
  have expired := endSettling_due settling ends
  generalize s.dev.settlingLeft.sourcesSettled = x at state par meas states expired
  have sound (u : Utility) : (x.chg.source u).state ≠ .failed := by
    have judged := judged u
    rw [states]
    revert judged
    cases s.dev.judgement u <;> decide
  rw [settleCauses_none sound] at expired
  have ran : exec .settlingEnd s = .next (s.withDev x.flush) := by
    rw [← expired]
    exact State.whenRunning_eq run (fun d => d.endSettling.flush)
  refine ⟨x, ran, ?_, ?_, ?_, ?_, fun u healthy => ?_, fun u undetermined => ?_, meas.trans read⟩
  · rw [state, rest]
    rfl
  · rw [par, settled]
    rfl
  · rw [par, periods]
    rfl
  · rw [par, first]
    exact nextHundred_toNat room
  · rw [states, healthy]
    rfl
  · rw [states, undetermined]
    rfl

end Sys2Proof.Machine

/-!
What an expired overlap's OPEN does (R107, R111, R145), and what a failing scheme leaves of commands and errors (R140).
-/
namespace Sys2Proof.Machine

/-! ## What a failing scheme leaves of commands and errors (R140) -/

section
variable (d : Dev) (b x : Fin 24)

theorem dropClaim_record : ((d.dropClaim b).breaker x).record = (d.breaker x).record := by
  have pushed : (d.dropClaim b).breaker x =
      (d.modBreaker b (fun r => { r with claim := none, releasePending := false })).breaker x := rfl
  rw [pushed, Dev.modBreaker_breaker]
  split <;> rfl

theorem releaseClaim_record (h : Holder) : ((d.releaseClaim b h).breaker x).record = (d.breaker x).record := by
  unfold Dev.releaseClaim
  split
  · split
    · rw [Dev.modBreaker_breaker]
      split <;> rfl
    · exact dropClaim_record d b x
  · rfl

theorem releaseClaim_beside (h : Holder) : (d.releaseClaim b h).lnk = d.lnk ∧ (d.releaseClaim b h).mgt = d.mgt := by
  unfold Dev.releaseClaim
  split
  · split <;> exact ⟨rfl, rfl⟩
  · exact ⟨rfl, rfl⟩

/-- The releases of a claim set keep every record, LNK and MGT. -/
theorem releaseClaims_keeps : (d.releaseClaims.breaker x).record = (d.breaker x).record ∧ d.releaseClaims.lnk = d.lnk ∧
    d.releaseClaims.mgt = d.mgt :=
  ⟨forEach_frame (fun y => (y.breaker x).record) (fun b y => releaseClaim_record y b x .chg) _ _,
    forEach_frame Dev.lnk (fun b y => (releaseClaim_beside y b .chg).1) _ _,
    forEach_frame Dev.mgt (fun b y => (releaseClaim_beside y b .chg).2) _ _⟩

theorem withdrawBusRequest_keeps : (d.withdrawBusRequest.breaker x).record = (d.breaker x).record ∧
    d.withdrawBusRequest.lnk = d.lnk ∧ d.withdrawBusRequest.mgt = d.mgt := by
  unfold Dev.withdrawBusRequest
  dsimp only
  split <;> exact ⟨rfl, rfl, rfl⟩

theorem queueNotice_protQueue (kind subject : Nat) (detail : List Byte) :
    (d.queueNotice kind subject detail).lnk.protQueue = d.lnk.protQueue := by
  have run (e : Dev) : (e.runPort .p2).lnk.protQueue = e.lnk.protQueue :=
    (congrArg (fun y => y.lnk.protQueue) (runPort_besideRun e .p2) :)
  unfold Dev.queueNotice
  split
  · rfl
  · dsimp only
    rw [run]
    split <;> rfl

theorem recordError_protQueue (c : ErrorCode) (n : Nat) : (d.recordError c n).lnk.protQueue = d.lnk.protQueue := by
  unfold Dev.recordError
  split
  · rfl
  · exact queueNotice_protQueue _ _ _ _

theorem noticeEnd_protQueue : d.noticeEnd.lnk.protQueue = d.lnk.protQueue := by
  unfold Dev.noticeEnd
  split
  · exact queueNotice_protQueue _ _ _ _
  · rfl

variable {d} in
theorem noticeEnd_listed {c : ErrorCode} {n : Nat} (span : errorSpan d.mgt.errors ≤ 16)
    (listed : errorListed d.mgt.errors c n = true) : errorListed d.noticeEnd.mgt.errors c n = true := by
  unfold Dev.noticeEnd
  split
  · exact queueNotice_keeps span listed _ _ _
  · exact listed

theorem failureReleased_keeps (reason : FailReason) (refusal : Refused) :
    ((d.failureReleased reason refusal).breaker x).record = (d.breaker x).record ∧
      (d.failureReleased reason refusal).lnk = d.lnk ∧ (d.failureReleased reason refusal).mgt = d.mgt := by
  obtain ⟨record, lnk, mgt⟩ := releaseClaims_keeps (d.transferFailed reason refusal).withdrawBusRequest x
  obtain ⟨record', lnk', mgt'⟩ := withdrawBusRequest_keeps (d.transferFailed reason refusal) x
  exact ⟨record.trans record', lnk.trans lnk', mgt.trans mgt'⟩

theorem failureTold_breaker : d.failureTold.breaker x = d.breaker x := by
  have bare := (bare_noticeEnd _).trans (bare_recordError (d.modChg (fun c => { c with pending := [] })) .schemeFailed d.schemeId)
  exact breaker_of_bare bare x

theorem failureTold_protQueue : d.failureTold.lnk.protQueue = d.lnk.protQueue :=
  (noticeEnd_protQueue _).trans (recordError_protQueue (d.modChg (fun c => { c with pending := [] })) .schemeFailed d.schemeId)

variable {d} in
theorem failureTold_listed {c : ErrorCode} {n : Nat} (room : errorSpan d.mgt.errors < 16)
    (listed : errorListed d.mgt.errors c n = true) : errorListed d.failureTold.mgt.errors c n = true := by
  have span := recordError_span (d := d.modChg (fun c => { c with pending := [] })) room .schemeFailed d.schemeId
  exact noticeEnd_listed (span.trans room)
    (recordError_keeps (d := d.modChg (fun c => { c with pending := [] })) room listed)

variable (reason : FailReason) (refusal : Refused)

/-- A failing scheme keeps every record and the protection queue. -/
theorem failScheme_commands : ((d.failScheme reason refusal).breaker x).record = (d.breaker x).record ∧
    (d.failScheme reason refusal).lnk.protQueue = d.lnk.protQueue := by
  obtain ⟨record, lnk, -⟩ := failureReleased_keeps d x reason refusal
  rw [failScheme_eq, failureTold_breaker, failureTold_protQueue, lnk]
  exact ⟨record, rfl⟩

variable {d} in
/-- While the error list has room, a failing scheme takes no error from it. -/
theorem failScheme_listed {c : ErrorCode} {n : Nat} (room : errorSpan d.mgt.errors < 16)
    (listed : errorListed d.mgt.errors c n = true) : errorListed (d.failScheme reason refusal).mgt.errors c n = true := by
  obtain ⟨-, -, mgt⟩ := failureReleased_keeps d 0 reason refusal
  rw [failScheme_eq]
  exact failureTold_listed (mgt ▸ room) (mgt ▸ listed)

end

/-! ## The OPEN of an expired overlap (R107, R111, R145) -/

theorem toId_eq_some {n x : Nat} {i : Fin n} : toId n x = some i ↔ x = i.val := by
  unfold toId
  split
  · rw [Option.some.injEq, Fin.ext_iff]
  next large => exact ⟨nofun, fun h => absurd (h ▸ i.isLt) large⟩

section
variable {d : Dev} {o : Overlap} {b : Fin 24}

/-- CHG's request for the OPEN of a breaker. -/
def tripRequest (b : Fin 24) : OpRequest := { breaker := b, action := .openIt, requester := .block .chg, prot := true, arm := false }

/-- The record that CHG's accepted OPEN makes (R107). -/
def Dev.tripRecord (d : Dev) (b : Fin 24) : CmdRecord :=
  { id := (d.breaker b).nextId, action := .openIt, prot := true, requester := .block .chg, issue := d.now, repeatNo := 0
    nextRepeat := after d.now 2, opEnd := after d.now (d.breakerCfg b).timeout, bfEnd := none, bfOperated := false, tellChg := true }

theorem makeRecord_trip : d.makeRecord b .openIt true false (.block .chg) = d.tripRecord b := rfl

/-- The overlap record names the breaker to trip, and it is used. -/
def Dev.tripsFor (d : Dev) (o : Overlap) (b : Fin 24) : Prop := o.tripBreaker = b.val ∧ (d.breakerCfg b).used = true

theorem overlapOpen_trips (trips : d.tripsFor o b) : d.overlapOpen o = (d.accept (tripRequest b)).2 := by
  rw [Dev.overlapOpen, trips.1, toId_val]
  dsimp only
  rw [Dev.protOpen, Dev.request, trips.2]
  rfl

theorem overlapOpen_other (apart : ¬ d.tripsFor o b) : (d.overlapOpen o).breaker b = d.breaker b := by
  unfold Dev.overlapOpen
  split
  next k named =>
    by_cases own : b = k
    · subst own
      have unused : (d.breakerCfg b).used = false := by
        rw [← Bool.not_eq_true]
        exact fun used => apart ⟨toId_eq_some.mp named, used⟩
      rw [Dev.protOpen, Dev.request, unused]
      rfl
    · exact other_protOpen d k b _ _ own
  · rfl

theorem overlapOpen_shell : (d.overlapOpen o).shell = d.shell := by
  unfold Dev.overlapOpen
  split
  · exact shell_protOpen _ _ _ _
  · rfl

theorem overlapOpen_errors : (d.overlapOpen o).mgt.errors = d.mgt.errors := by
  unfold Dev.overlapOpen
  split
  · exact protOpen_errors _ _ _ _
  · rfl

/-- An OPEN of a breaker that has a protection record joins it. -/
theorem overlapOpen_joins (trips : d.tripsFor o b) {r : CmdRecord} (record : (d.breaker b).record = some r) (prot : r.prot = true) :
    d.overlapOpen o = d.modBreaker b (fun x => { x with record := some { r with tellChg := true } }) := by
  have record : (d.breaker (tripRequest b).breaker).record = some r := record
  rw [overlapOpen_trips trips, Dev.accept, record]
  dsimp only
  rw [if_pos prot]
  simp [Dev.joinRecord, tripRequest]

theorem overlapOpen_starts (trips : d.tripsFor o b) (idle : (d.breaker b).record = none) :
    d.overlapOpen o = d.startRecord b .openIt true false (.block .chg) := by
  have idle : (d.breaker (tripRequest b).breaker).record = none := idle
  rw [overlapOpen_trips trips, Dev.accept, idle]
  rfl

theorem overlapOpen_supersedes (trips : d.tripsFor o b) {r : CmdRecord} (record : (d.breaker b).record = some r)
    (other : r.prot = false) :
    d.overlapOpen o = (d.endRecord b .superseded).startRecord b .openIt true false (.block .chg) := by
  have record : (d.breaker (tripRequest b).breaker).record = some r := record
  rw [overlapOpen_trips trips, Dev.accept, record]
  dsimp only
  rw [other]
  rfl

theorem overlapOpen_untripped (apart : ∀ b, ¬ d.tripsFor o b) : d.overlapOpen o = d := by
  unfold Dev.overlapOpen
  split
  next k named =>
    have unused : (d.breakerCfg k).used = false := by
      rw [← Bool.not_eq_true]
      exact fun used => apart k ⟨toId_eq_some.mp named, used⟩
    rw [Dev.protOpen, Dev.request, unused]
    rfl
  · rfl

/-- Where no other record is superseded, the OPEN reports nothing. -/
theorem overlapOpen_work (prot : ∀ b r, d.tripsFor o b → (d.breaker b).record = some r → r.prot = true) :
    (d.overlapOpen o).work = d.work := by
  by_cases named : ∃ b, d.tripsFor o b
  · obtain ⟨b, trips⟩ := named
    cases record : (d.breaker b).record with
    | none => rw [overlapOpen_starts trips record, startRecord_work]
    | some r => rw [overlapOpen_joins trips record (prot b r trips record), Dev.modBreaker_work]
  · rw [overlapOpen_untripped (fun b trips => named ⟨b, trips⟩)]

end
end Sys2Proof.Machine

/-!
O27: the overlap record's making and re-examination, and its timer's expiry as the OPEN and the failing scheme make it.
-/
namespace Sys2Proof.Machine

/-! ## The overlap record at its timer's expiry (R145) -/

/-- The device once an expired overlap record is listed as an error and gone. -/
def Dev.overlapCleared (d : Dev) (o : Overlap) : Dev :=
  (d.recordError .overlapExceeded o.breaker.val).modChg (fun c => { c with overlap := none })

theorem overlap_of_fixedChg {d e : Dev} (h : d.fixedChg = e.fixedChg) : d.chg.overlap = e.chg.overlap :=
  congrArg (fun v => v.2.2.2) h

section
variable {d : Dev} {o : Overlap} {t : Transfer}

theorem overlapCleared_bare : (d.overlapCleared o).bare = (d.modChg (fun c => { c with overlap := none })).bare :=
  congrArg (fun x : Dev => x.modChg (fun c => { c with overlap := none })) (bare_recordError d .overlapExceeded o.breaker.val)

theorem overlapCleared_chg : (d.overlapCleared o).chg = { d.chg with overlap := none } :=
  (congrArg Dev.chg (overlapCleared_bare (d := d) (o := o)) :)

theorem overlapCleared_running : (d.overlapCleared o).running = d.running := by
  rw [Dev.running, overlapCleared_chg]
  rfl

/-- Where the scheme that made the record runs, it fails. -/
theorem overlapFail_fails (running : d.running = some t) (own : t.scheme = o.scheme) :
    d.overlapFail o = (d.overlapCleared o).failScheme .overlap .none := by
  have running : (d.overlapCleared o).running = some t := overlapCleared_running.trans running
  unfold Dev.overlapFail
  dsimp only
  split
  next x runs =>
    obtain rfl := Option.some.inj (running.symm.trans runs)
    exact if_pos own
  next idle => exact absurd (running.symm.trans idle) nofun

theorem overlapFail_idle (idle : d.running = none) : d.overlapFail o = d.overlapCleared o := by
  have idle : (d.overlapCleared o).running = none := overlapCleared_running.trans idle
  unfold Dev.overlapFail
  dsimp only
  split
  next x runs => exact absurd (idle.symm.trans runs) nofun
  · rfl

theorem overlapFail_overlap : (d.overlapFail o).chg.overlap = none := by
  have inner := fixedChg_inner (d.overlapCleared o).fixedChg
  have kept : (d.overlapFail o).fixedChg = (d.overlapCleared o).fixedChg := by
    unfold Dev.overlapFail
    dsimp only
    split
    · exact keeps_ite (P := fun x => x.fixedChg = _) (inner.failScheme _ _ rfl) (inner.overlapGone rfl)
    · rfl
  rw [overlap_of_fixedChg kept, overlapCleared_chg]

theorem overlapCleared_listed :
    errorListed (d.overlapCleared o).mgt.errors .overlapExceeded o.breaker.val = true :=
  recordError_listed (.inl rfl) _

/-- What an overlap's expiry leaves where no other scheme than its maker's runs: the error listed, records and protection queue. -/
theorem overlapFail_leaves (few : d.mgt.errors.length < 14) (own : ∀ t, d.running = some t → t.scheme = o.scheme) (b : Fin 24) :
    errorListed (d.overlapFail o).mgt.errors .overlapExceeded o.breaker.val = true ∧
      ((d.overlapFail o).breaker b).record = (d.breaker b).record ∧ (d.overlapFail o).lnk.protQueue = d.lnk.protQueue := by
  have breaker : (d.overlapCleared o).breaker b = d.breaker b := breaker_of_bare overlapCleared_bare b
  have queue : (d.overlapCleared o).lnk.protQueue = d.lnk.protQueue := recordError_protQueue d _ _
  cases running : d.running with
  | none =>
    rw [overlapFail_idle running]
    exact ⟨overlapCleared_listed, by rw [breaker], queue⟩
  | some t =>
    have span := errorSpan_le d.mgt.errors
    have grown : errorSpan (d.overlapCleared o).mgt.errors ≤ errorSpan d.mgt.errors + 1 := recordError_span (by omega) _ _
    have room : errorSpan (d.overlapCleared o).mgt.errors < 16 := by omega
    rw [overlapFail_fails running (own t running)]
    obtain ⟨record, queue'⟩ := failScheme_commands (d.overlapCleared o) b .overlap .none
    exact ⟨failScheme_listed .overlap .none room overlapCleared_listed, by rw [record, breaker], queue'.trans queue⟩

theorem overlapFail_failed (running : d.running = some t) (own : t.scheme = o.scheme) :
    (d.overlapFail o).chg.state = .failed ∧
      (d.overlapFail o).chg.transfer = some { t with result := .failed, reason := .overlap, refusal := .none } := by
  rw [overlapFail_fails running own, (failScheme_effect _ _ _).1, overlapCleared_chg]
  refine ⟨rfl, ?_⟩
  simp only [Chg.failed, (running_some running).2, Option.map_some]

end

/-! ## The OPEN's record and frame (R107, R145) -/

section
variable {d : Dev} {o : Overlap} {b : Fin 24}

theorem running_of_shell {e : Dev} (h : d.shell = e.shell) : d.running = e.running :=
  show d.shell.running = e.shell.running by rw [h]

theorem overlapOpen_record (trips : d.tripsFor o b) (idle : (d.breaker b).record = none) :
    ((d.overlapOpen o).breaker b).record = some (d.tripRecord b) := by
  rw [overlapOpen_starts trips idle, startRecord_breaker, makeRecord_trip]

theorem overlapOpen_joined (trips : d.tripsFor o b) {r : CmdRecord} (record : (d.breaker b).record = some r) (prot : r.prot = true) :
    ((d.overlapOpen o).breaker b).record = some { r with tellChg := true } := by
  rw [overlapOpen_joins trips record prot, Dev.modBreaker_breaker, if_pos rfl]

/-- While P1 sends, the OPEN's frame waits in the protection queue. -/
theorem overlapOpen_protQueue (trips : d.tripsFor o b) (idle : (d.breaker b).record = none) (busy : d.portBusy .p1) :
    (b, d.commandFrame b (d.tripRecord b)) ∈ (d.overlapOpen o).lnk.protQueue := by
  set x := d.modBreaker b (fun y => { y with record := some (d.tripRecord b), nextId := y.nextId + 1 }) with hx
  have busy' : x.portBusy .p1 := ⟨busy.up, busy.tx⟩
  have queue : (x.enqueueCommand b true (x.commandFrame b (d.tripRecord b))).lnk.protQueue =
      putKey b (d.commandFrame b (d.tripRecord b)) d.lnk.protQueue :=
    congrArg (fun w => w.2.1.1) (enqueueCommand_held (.inl busy') b true (x.commandFrame b (d.tripRecord b)))
  have started : d.overlapOpen o = x.enqueueCommand b true (x.commandFrame b (d.tripRecord b)) := overlapOpen_starts trips idle
  rw [started, queue]
  exact mem_putKey_same _ _ _

theorem reportEnd_nextId (r : CmdRecord) (e : RecordEnd) : ((d.reportEnd b r e).breaker b).nextId = (d.breaker b).nextId := by
  have drop : ((d.dropClaim b).breaker b).nextId = (d.breaker b).nextId :=
    (congrArg BreakerRec.nextId (Dev.modBreaker_breaker_same d b _) :)
  unfold Dev.reportEnd
  split
  · dsimp only
    split <;> split <;> rfl
  · split
    · split
      · exact drop
      · rfl
    · rfl
    · rfl

theorem endRecord_nextId (e : RecordEnd) : ((d.endRecord b e).breaker b).nextId = (d.breaker b).nextId := by
  unfold Dev.endRecord
  split
  · rfl
  next r _ =>
    set x := (d.modBreaker b (fun y => { y with record := none, outcome := e })).removeCommand b with hx
    have ended : (x.breaker b).nextId = (d.breaker b).nextId := (congrArg BreakerRec.nextId (Dev.modBreaker_breaker_same d b _) :)
    dsimp only
    split <;> exact (reportEnd_nextId r e).trans ended

/-- A record that is no protection's ends SUPERSEDED, and the OPEN's takes its place (R111). -/
theorem overlapOpen_superseded (trips : d.tripsFor o b) {r : CmdRecord} (record : (d.breaker b).record = some r)
    (other : r.prot = false) : ((d.overlapOpen o).breaker b).outcome = .superseded ∧
      ((d.overlapOpen o).breaker b).record = some (d.tripRecord b) := by
  obtain ⟨-, outcome⟩ := endRecord_breaker d b .superseded record
  have shell := shell_endRecord d b .superseded
  have record : (d.endRecord b .superseded).tripRecord b = d.tripRecord b := by
    have now : (d.endRecord b .superseded).now = d.now := (congrArg Dev.now shell :)
    have cfg : (d.endRecord b .superseded).breakerCfg b = d.breakerCfg b := (congrArg (fun y => y.breakerCfg b) shell :)
    rw [Dev.tripRecord, endRecord_nextId, now, cfg, Dev.tripRecord]
  rw [overlapOpen_supersedes trips ‹_› other, startRecord_breaker, makeRecord_trip, record]
  exact ⟨outcome, rfl⟩

end

/-! ## The record's making and re-examination (R143, R144) -/

section
variable {d : Dev} {t : Transfer} {b : Fin 24}

/-- Two source sets share a source. -/
theorem meets_iff (x y : SourceSet) : x.meets y = true ↔
    (x.a = true ∧ y.a = true) ∨ (x.b = true ∧ y.b = true) ∨ (x.gen = true ∧ y.gen = true) := by
  simp [SourceSet.meets, or_assoc]

theorem isEmpty_iff (x : SourceSet) : x.isEmpty = true ↔ x = {} := by
  obtain ⟨a, b, g⟩ := x
  simp [SourceSet.isEmpty, and_assoc]

theorem goOn_overlap (x : Progress × Dev) : (Dev.goOn x).chg.overlap = x.2.chg.overlap :=
  overlap_of_fixedChg ((fixedChg_inner x.2.fixedChg).goOn x rfl)

theorem busEnded_fixedChg : d.busEnded.fixedChg = d.fixedChg := (fixedChg_inner d.fixedChg).busEnded rfl

/-- The end of a CLOSE_SYNC step's record that made no overlap record. -/
theorem stepRecordEnded_other (kind : t.step.kind = 3) {e : RecordEnd} (other : e ≠ .done) :
    (d.stepRecordEnded t b e).chg.overlap = d.chg.overlap := by
  have ends (reason : FailReason) : (Dev.goOn (Progress.fail reason, d.busEnded)).chg.overlap = d.chg.overlap := by
    rw [goOn_overlap]
    exact overlap_of_fixedChg busEnded_fixedChg
  unfold Dev.stepRecordEnded
  rw [if_pos kind]
  cases e with
  | done => exact absurd rfl other
  | _ => exact ends _

theorem stepRecordEnded_done (kind : t.step.kind = 3) :
    (d.stepRecordEnded t b .done).chg.overlap = (d.busEnded.makeOverlap t b).chg.overlap := by
  rw [Dev.stepRecordEnded, if_pos kind, goOn_overlap, if_pos kind]

theorem makeOverlap_makes (some1 : t.set1 ≠ {}) (some2 : t.set2 ≠ {}) (apart : ¬ t.set1.meets t.set2 = true) :
    (d.makeOverlap t b).chg.overlap = some
      { breaker := b, set1 := t.set1, set2 := t.set2, scheme := t.scheme, limit := t.entry.limit
        tripBreaker := t.entry.tripBreaker, start := d.now, expiry := after d.now t.entry.limit } := by
  have makes : ¬ (t.set1.isEmpty || t.set2.isEmpty || t.set1.meets t.set2) = true := by
    simp only [Bool.or_eq_true, isEmpty_iff]
    exact fun h => h.elim (fun h => h.elim some1 some2) apart
  rw [Dev.makeOverlap, if_neg makes]
  rfl

theorem makeOverlap_none (none : t.set1 = {} ∨ t.set2 = {} ∨ t.set1.meets t.set2 = true) : d.makeOverlap t b = d := by
  have none : (t.set1.isEmpty || t.set2.isEmpty || t.set1.meets t.set2) = true := by
    simpa only [Bool.or_eq_true, isEmpty_iff, or_assoc] using none
  exact if_pos none

theorem chgRecordEnded_own (running : d.running = some t) (phase : t.phase = .requested) {id : Count16} (cmd : t.cmdId = some id)
    (breaker : t.step.breaker = some b) (e : RecordEnd) : d.chgRecordEnded b id e = d.stepRecordEnded t b e := by
  rw [Dev.chgRecordEnded, running]
  exact if_pos ⟨phase, cmd, breaker⟩

/-- After a position report the overlap record is what its re-examination left. -/
theorem chgPosition_overlap : (d.chgPosition b).chg.overlap = d.reexamine.chg.overlap := by
  have inner := fixedChg_inner d.reexamine.fixedChg
  exact overlap_of_fixedChg (inner.retestAwait _ _ (inner.retryStep b rfl))

theorem reexamine_overlap {o : Overlap} (overlap : d.chg.overlap = some o) :
    d.reexamine.chg.overlap = if d.parallelStands o then some o else none := by
  have gone (x : Dev) : x.overlapGone.chg.overlap = x.chg.overlap :=
    overlap_of_fixedChg ((fixedChg_inner x.fixedChg).overlapGone rfl)
  rw [Dev.reexamine, overlap]
  dsimp only
  split
  · exact overlap
  · exact gone _

theorem parallelStands_iff (o : Overlap) : d.parallelStands o = true ↔
    (d.sideSet (d.breakerCfg o.breaker).bus1).meets o.set1 = true ∧ (d.sideSet (d.breakerCfg o.breaker).bus1).meets o.set2 = true :=
  Bool.and_eq_true_iff

end

/-! ## The expiry -/

section
variable {s : State} {o : Overlap}

/-- At the expiry the OPEN is asked for, reports nothing, and the maker's scheme fails. -/
theorem expireOverlap_due {d : Dev} (overlap : d.chg.overlap = some o) (due : reached o.expiry d.now = true) (quiet : d.work = [])
    (prot : ∀ b r, d.tripsFor o b → (d.breaker b).record = some r → r.prot = true) :
    d.expireOverlap = (d.overlapOpen o).overlapFail o := by
  rw [Dev.expireOverlap, overlap]
  dsimp only
  rw [if_pos due, Dev.flush_of_no_work _ ((overlapOpen_work prot).trans quiet)]

theorem overlapTimer_expires (run : s.power = .running) (overlap : s.dev.chg.overlap = some o)
    (due : reached o.expiry s.dev.now = true) (quiet : s.dev.work = [])
    (prot : ∀ b r, s.dev.tripsFor o b → (s.dev.breaker b).record = some r → r.prot = true) :
    exec .overlapTimerExpiry s = .next (s.withDev ((s.dev.overlapOpen o).overlapFail o).flush) := by
  rw [← expireOverlap_due overlap due quiet prot]
  exact State.whenRunning_eq run (fun d => d.expireOverlap.flush)

end

/-- Settles O27: at the expiry the OPEN and the failing scheme leave one another's results alone; a step's end makes the record and
a position report examines it. -/
theorem overlapTimerExpires : Obligations.OverlapTimerExpires := by
  refine ⟨fun s o run overlap due quiet few prot => ?_, fun d t b id e running phase cmd breaker kind => ?_, ?_,
    fun d o b r named used record other => overlapOpen_superseded ⟨named, used⟩ record other⟩
  · have shell : (s.dev.overlapOpen o).shell = s.dev.shell := overlapOpen_shell
    have running : (s.dev.overlapOpen o).running = s.dev.running := running_of_shell shell
    have chg : (s.dev.overlapOpen o).chg = s.dev.chg := (congrArg Dev.chg shell :)
    have few : (s.dev.overlapOpen o).mgt.errors.length < 14 := by rw [overlapOpen_errors]; exact few
    have leaves (own : ∀ t, s.dev.running = some t → t.scheme = o.scheme) := overlapFail_leaves few (running ▸ own)
    refine ⟨_, overlapTimer_expires run overlap due quiet (fun b r trips => prot b r trips.1 trips.2), overlapFail_overlap,
      fun t runs own => ?_, fun idle => ?_, fun own => ⟨fun b apart => ?_, fun b named used => ⟨fun r record => ?_, fun none => ?_⟩⟩⟩
    · have only (x) (runs' : s.dev.running = some x) : x.scheme = o.scheme := by
        obtain rfl := Option.some.inj (runs.symm.trans runs')
        exact own
      exact ⟨(leaves only 0).1, overlapFail_failed (running.trans runs) own⟩
    · refine ⟨(leaves (fun x runs => absurd (idle.symm.trans runs) nofun) 0).1, ?_⟩
      rw [overlapFail_idle (running.trans idle), overlapCleared_chg, chg]
      exact ⟨rfl, rfl⟩
    · rw [(leaves own b).2.1, overlapOpen_other apart]
    · rw [(leaves own b).2.1, overlapOpen_joined ⟨named, used⟩ record (prot b r named used record)]
    · refine ⟨?_, fun busy => ?_⟩
      · rw [(leaves own b).2.1]
        exact overlapOpen_record ⟨named, used⟩ none
      · rw [(leaves own b).2.2]
        exact overlapOpen_protQueue ⟨named, used⟩ none busy
  · rw [chgRecordEnded_own running phase cmd breaker e, ← meets_iff]
    have now : d.busEnded.now = d.now := congrArg (fun v => v.1.clock) (busEnded_fixedChg (d := d))
    have kept := overlap_of_fixedChg (busEnded_fixedChg (d := d))
    refine ⟨?_, fun none => ?_⟩
    · rintro rfl some1 some2 apart
      rw [stepRecordEnded_done kind, makeOverlap_makes some1 some2 apart, now]
    · by_cases done : e = .done
      · subst done
        rw [stepRecordEnded_done kind, makeOverlap_none (none.resolve_left (fun h => h rfl)), kept]
      · exact stepRecordEnded_other kind done
  · intro d b o overlap x shares
    have shares_iff (y : SourceSet) : shares y ↔ x.meets y = true := (meets_iff x y).symm
    rw [chgPosition_overlap, reexamine_overlap overlap, shares_iff, shares_iff]
    refine ⟨fun meets1 meets2 => if_pos ((parallelStands_iff o).mpr ⟨meets1, meets2⟩), fun apart => if_neg (fun stands => apart ?_)⟩
    exact (parallelStands_iff o).mp stands

end Sys2Proof.Machine

/-!
A set's moves (R156, R158, R160, R163, R168, R169), step by step: what a move makes of its own set, and what it leaves alone.
-/
namespace Sys2Proof.Machine

/-! ## The steps of a move -/

/-- A set's record as it moves to a state: its timer runs on between SYNC_WAIT and SYNCING alone (R158). -/
def GenRec.moved (r : GenRec) (state : GenState) : GenRec :=
  { r with state := state, timer := if r.state.inSync && state.inSync then r.timer else none }

/-- Any other move stops the timer. -/
theorem GenRec.moved_outside (r : GenRec) {state : GenState} (outside : state.inSync = false) :
    r.moved state = { r with state := state, timer := none } := by
  rw [GenRec.moved, outside, Bool.and_false]
  rfl

section
variable (d : Dev) (g : Fin 6) (old state : GenState) (f : GenRec → GenRec)

/-- The moved set gives up a grant that its new state cannot hold (R163). -/
def Dev.grantGivenUp : Dev :=
  if decide (d.par.grant = some g) && decide (state ≠ .deadBusWait) && decide (state ≠ .closing) then d.leaveGrant state else d

/-- The service of the moved set ends where its new state has none (R168). -/
def Dev.serviceGivenUp : Dev :=
  if d.servesGen g && !state.inSync && decide (state ≠ .closing) then d.endService else d

/-- CHG is told of an entry to ON_BUS and of a leaving (R169). -/
def Dev.onBusTold : Dev := if decide (old = .onBus) != decide (state = .onBus) then d.push .onBusChanged else d

/-- Demand is to be met again as R160 states. -/
def Dev.demandOwed : Dev := if old = .closing ∨ state = .stopped ∨ state = .failed then d.push .meetDemand else d

theorem moveGen_eq : d.moveGen g state f =
    ((((d.modGen g (fun r => f { r with
        state := state, timer := if (d.gen g).state.inSync && state.inSync then r.timer else none })).grantGivenUp g state
      ).serviceGivenUp g state).onBusTold (d.gen g).state state).demandOwed (d.gen g).state state := rfl

/-- A move changes its set's record; what else it may do is to give up the grant, to end a service and to report. -/
theorem moveGen_view {β : Type} (view : Dev → β)
    (grant : ∀ x : Dev, state ≠ .deadBusWait → state ≠ .closing → view (x.leaveGrant state) = view x)
    (service : ∀ x : Dev, x.servesGen g = true → state.inSync = false → state ≠ .closing → view x.endService = view x)
    (report : ∀ (x : Dev) (r : Report), view (x.push r) = view x) :
    view (d.moveGen g state f) = view (d.modGen g (fun r => f { r with
      state := state, timer := if (d.gen g).state.inSync && state.inSync then r.timer else none })) := by
  have givesUp (x : Dev) : view (x.grantGivenUp g state) = view x := by
    unfold Dev.grantGivenUp
    split
    next gives =>
      simp only [Bool.and_eq_true, decide_eq_true_eq] at gives
      exact grant x gives.1.2 gives.2
    · rfl
  have ends (x : Dev) : view (x.serviceGivenUp g state) = view x := by
    unfold Dev.serviceGivenUp
    split
    next ends =>
      simp only [Bool.and_eq_true, Bool.not_eq_true', decide_eq_true_eq] at ends
      exact service x ends.1.1 ends.1.2 ends.2
    · rfl
  rw [moveGen_eq, Dev.demandOwed, ite_frame view (report _ _), Dev.onBusTold, ite_frame view (report _ _), ends, givesUp]

/-! ## What a move makes of the sets -/

theorem moveGen_gens : (d.moveGen g state f).par.gens = tmod d.par.gens g (fun r => f { r with
    state := state, timer := if (d.gen g).state.inSync && state.inSync then r.timer else none }) :=
  moveGen_view d g state f (fun x => x.par.gens) (fun x _ _ => by unfold Dev.leaveGrant; split <;> rfl) (fun _ _ _ _ => rfl)
    (fun _ _ => rfl)

theorem moveGen_own : (d.moveGen g state f).gen g = f ((d.gen g).moved state) := by
  rw [Dev.gen, moveGen_gens, tget_tmod_same]
  rfl

theorem moveGen_other {k : Fin 6} (other : k ≠ g) : (d.moveGen g state f).gen k = d.gen k := by
  rw [Dev.gen, moveGen_gens, tget_tmod_ne _ _ _ _ other]
  rfl

/-! ## What a move leaves alone -/

/-- A set that moves to CLOSING keeps the grant and the service that it has (R163, R168). -/
theorem moveGen_closing_par : (d.moveGen g .closing f).par.grant = d.par.grant ∧
    (d.moveGen g .closing f).par.sync = d.par.sync :=
  Prod.ext_iff.mp <| moveGen_view d g .closing f (fun x => (x.par.grant, x.par.sync)) (fun _ _ closing => absurd rfl closing)
    (fun _ _ _ closing => absurd rfl closing) (fun _ _ => rfl)

/-- A set that waits for the synchroniser or is served keeps its service (R168). -/
theorem moveGen_sync (inSync : state.inSync = true) : (d.moveGen g state f).par.sync = d.par.sync :=
  moveGen_view d g state f (fun x => x.par.sync) (fun x _ _ => by unfold Dev.leaveGrant; split <;> rfl)
    (fun _ _ outside => absurd inSync (by rw [outside]; nofun)) (fun _ _ => rfl)

/-- All but PAR and the reports. -/
def Dev.besidePar (d : Dev) : Dev := { d with par := {}, work := [] }

theorem moveGen_besidePar : (d.moveGen g state f).besidePar = d.besidePar :=
  moveGen_view d g state f Dev.besidePar (fun _ _ _ => by unfold Dev.leaveGrant; split <;> rfl) (fun _ _ _ _ => rfl)
    (fun _ _ => rfl)

/-! ## What a move reports -/

variable {d g old state f}

/-- What is reported stays so until it is taken. -/
theorem mem_work_push {r : Report} (member : r ∈ d.work) (x : Report) : r ∈ (d.push x).work := List.mem_append_left _ member

theorem mem_work_self (r : Report) : r ∈ (d.push r).work := List.mem_append_right _ (List.mem_singleton_self r)

/-- A choice whose one branch only adds reports. -/
theorem mem_work_ite {r : Report} {c : Prop} [Decidable c] {x : Dev} (added : r ∈ x.work) (member : r ∈ d.work) :
    r ∈ (if c then x else d).work := keeps_ite (P := fun y => r ∈ y.work) added member

theorem moveGen_meetDemand (owed : state = .stopped ∨ state = .failed) : .meetDemand ∈ (d.moveGen g state f).work := by
  rw [moveGen_eq, Dev.demandOwed, if_pos (.inr owed)]
  exact mem_work_self _

theorem moveGen_onBusChanged (leaves : (d.gen g).state = .onBus) (new : state ≠ .onBus) :
    .onBusChanged ∈ (d.moveGen g state f).work := by
  have told (x : Dev) : .onBusChanged ∈ (x.onBusTold (d.gen g).state state).work := by
    rw [Dev.onBusTold, if_pos (by simp [leaves, new])]
    exact mem_work_self _
  rw [moveGen_eq]
  exact mem_work_ite (mem_work_push (told _) _) (told _)

end

/-! ## What the moves of a set leave of the rest -/

section
variable {d e : Dev} {k : Fin 6} {b : Fin 24}

theorem breaker_of_besidePar (h : d.besidePar = e.besidePar) : d.breaker b = e.breaker b :=
  show d.besidePar.breaker b = e.besidePar.breaker b by rw [h]

theorem position_of_besidePar (h : d.besidePar = e.besidePar) : d.position b = e.position b :=
  show d.besidePar.position b = e.besidePar.position b by rw [h]

theorem genBreaker_of_besidePar (h : d.besidePar = e.besidePar) : d.genBreaker k = e.genBreaker k :=
  show d.besidePar.genBreaker k = e.besidePar.genBreaker k by rw [h]

theorem mgt_of_besidePar (h : d.besidePar = e.besidePar) : d.mgt = e.mgt := show d.besidePar.mgt = e.besidePar.mgt by rw [h]

theorem takesOpen_of_besidePar (h : d.besidePar = e.besidePar) (takes : e.takesOpen b) : d.takesOpen b := by
  have same : e.besidePar.takesOpen b := ⟨takes.used, takes.gen, takes.mode, takes.claim, takes.record⟩
  obtain ⟨used, gen, mode, claim, record⟩ := h ▸ same
  exact ⟨used, gen, mode, claim, record⟩

theorem gen_of_shell (h : d.shell = e.shell) : d.gen k = e.gen k := show d.shell.gen k = e.shell.gen k by rw [h]

theorem gen_of_bare (h : d.bare = e.bare) : d.gen k = e.gen k := gen_of_shell (shell_of_bare h)

/-- The release of a claim only adds reports. -/
theorem mem_work_releaseClaim {r : Report} (member : r ∈ d.work) (h : Holder) : r ∈ (d.releaseClaim b h).work :=
  mem_work_ite (mem_work_ite member (mem_work_push member _)) member

end
end Sys2Proof.Machine

/-!
GEN_RESET (R175, R179), with O49.
-/
namespace Sys2Proof.Machine

/-! ## A set that enters STOPPED -/

section
variable {d : Dev} {g : Fin 6} {n : Nat}

/-- The set's move to STOPPED, before its breaker is released. -/
def Dev.stopMoved (d : Dev) (g : Fin 6) : Dev :=
  d.moveGen g .stopped (fun r => { r.zero with reason := .none, wantClaim := false })

theorem toStopped_cases : d.toStopped g = d.stopMoved g ∨ ∃ b, d.toStopped g = (d.stopMoved g).releaseClaim b .par := by
  unfold Dev.toStopped
  dsimp only
  split
  next b _ => exact .inr ⟨b, rfl⟩
  · exact .inl rfl

/-- The release of its breaker leaves what the move to STOPPED made of the set. -/
theorem toStopped_gen (k : Fin 6) : (d.toStopped g).gen k = (d.stopMoved g).gen k := by
  rcases toStopped_cases (d := d) (g := g) with same | ⟨b, released⟩
  · rw [same]
  · rw [released, gen_of_shell (shell_releaseClaim _ b .par)]

theorem toStopped_own : (d.toStopped g).gen g =
    { ((d.gen g).moved .stopped).zero with reason := .none, wantClaim := false } :=
  (toStopped_gen g).trans (moveGen_own d g _ _)

theorem toStopped_other {k : Fin 6} (other : k ≠ g) : (d.toStopped g).gen k = d.gen k :=
  (toStopped_gen k).trans (moveGen_other d g _ _ other)

theorem toStopped_meetDemand : .meetDemand ∈ (d.toStopped g).work := by
  have owed : .meetDemand ∈ (d.stopMoved g).work := moveGen_meetDemand (.inl rfl)
  rcases toStopped_cases (d := d) (g := g) with same | ⟨b, released⟩
  · rw [same]
    exact owed
  · rw [released]
    exact mem_work_releaseClaim owed .par

/-! ## OPERATE GEN_RESET -/

theorem opGenReset_unknown (none : 6 ≤ n) : d.opGenReset n = (refuse resInvalid, d) := by simp [Dev.opGenReset, toId_none none]

theorem opGenReset_unused (unused : (d.genCfg g).used = false) : d.opGenReset g.val = (refuse resInvalid, d) := by
  simp [Dev.opGenReset, Dev.genReset, unused, plain, refuse]

theorem opGenReset_sound (used : (d.genCfg g).used = true) (sound : (d.gen g).state ≠ .failed) :
    d.opGenReset g.val = (refuse resOk, d) := by
  simp [Dev.opGenReset, Dev.genReset, used, sound, plain, refuse]

theorem opGenReset_running (used : (d.genCfg g).used = true) (failed : (d.gen g).state = .failed)
    (running : (d.gen g).engine = .running) : d.opGenReset g.val = (refuse resNotPermitted, d) := by
  simp [Dev.opGenReset, Dev.genReset, used, failed, running, plain, refuse]

theorem opGenReset_resets (used : (d.genCfg g).used = true) (failed : (d.gen g).state = .failed)
    (halted : (d.gen g).engine ≠ .running) : d.opGenReset g.val = (refuse resOk, d.toStopped g) := by
  simp [Dev.opGenReset, Dev.genReset, used, failed, halted, plain, refuse]

end

/-- Settles O49: no answer but the last reports anything, and what a reset set was is its move to STOPPED. -/
theorem generatorReset : Obligations.GeneratorReset := by
  intro s q rest n operates d
  have taken : d = { s.dev with mgt := d.mgt } := taking_eq s.dev q rest
  have quiet : d.work = [] := operates.serves.work
  refine ⟨fun none => operates.exec_quiet rfl (opGenReset_unknown none) quiet, ?_⟩
  rintro g rfl
  have entry : d.genCfg g = s.dev.genCfg g := by rw [taken]; rfl
  have record (k : Fin 6) : d.gen k = s.dev.gen k := by rw [taken]; rfl
  rw [← entry, ← record g]
  refine ⟨fun unused => operates.exec_quiet rfl (opGenReset_unused unused) quiet,
    fun used sound => operates.exec_quiet rfl (opGenReset_sound used sound) quiet,
    fun used failed running => operates.exec_quiet rfl (opGenReset_running used failed running) quiet,
    fun used failed halted => ?_⟩
  have acts := operates.exec_eq (c := .genReset) (act := fun d x => d.opGenReset x) rfl
  have own : (d.toStopped g).gen g = _ := toStopped_own
  have beside := besideSets_toStopped d g
  rw [show (s.dev.taking q rest).opGenReset g.val = _ from opGenReset_resets used failed halted] at acts
  refine ⟨d.toStopped g, acts, ?_⟩
  rw [own]
  refine ⟨rfl, rfl, rfl, rfl, rfl, rfl, fun k other => (toStopped_other other).trans (record k), toStopped_meetDemand, ?_, ?_⟩
  · exact (chg_of_besideSets beside).trans (by rw [taken])
  · exact (meas_of_besideSets beside).trans (by rw [taken])

end Sys2Proof.Machine

/-!
PAR's requests to SWM (R102, R104 to R107): when they are accepted, what they may come to otherwise, and the record of an accepted
one.
-/
namespace Sys2Proof.Machine

/-! ## PAR's claim (R102) -/

section
variable (d : Dev) (b x : Fin 24)

/-- The device with PAR holding the claim on a breaker. -/
def Dev.parClaimed : Dev := d.modBreaker b (fun r => { r with claim := some .par, releasePending := false })

/-- Who holds the claim shows in the claim alone: with MGT's in its place the device is that of MGT's claim, of which what follows
is known. -/
theorem parClaimed_mgtClaimed : (d.parClaimed b).mgtClaimed b = d.mgtClaimed b := Dev.modBreaker_twice d b _ _

theorem parClaimed_breaker : (d.parClaimed b).breaker b = { d.breaker b with claim := some .par, releasePending := false } :=
  Dev.modBreaker_breaker_same d b _

theorem parClaimed_position : (d.parClaimed b).position x = d.position x := by
  rw [← mgtClaimed_position _ b, parClaimed_mgtClaimed, mgtClaimed_position]

theorem parClaimed_permissive : (d.parClaimed b).permissive x = d.permissive x := by
  rw [← mgtClaimed_permissive _ b, parClaimed_mgtClaimed, mgtClaimed_permissive]

theorem parClaimed_sides : (d.parClaimed b).sides x = d.sides x := by
  rw [← mgtClaimed_sides _ b, parClaimed_mgtClaimed, mgtClaimed_sides]

theorem claim_par_cases : d.claim b .par = (.granted, d.parClaimed b) ∨ ∃ o, o ≠ .granted ∧ d.claim b .par = (o, d) := by
  unfold Dev.claim
  split
  · exact .inl rfl
  next refused => exact .inr ⟨_, fun granted => refused granted, rfl⟩

variable {d b} in
theorem claim_par_granted (takes : d.takesOpen b) : d.claim b .par = (.granted, d.parClaimed b) := by
  have decision : decideClaim (d.breaker b).claim .par (d.breakerCfg b).isGen = .granted := by
    rcases takes.claim with claim | claim <;> rw [claim, takes.gen] <;> rfl
  simp only [Dev.claim, decision]
  rfl

end

/-! ## What PAR's request starts (R107) -/

section
variable (d : Dev) (b : Fin 24) (a : Action) (r : Option SyncResult)

/-- PAR's request for a breaker of a set, with the synchroniser's result if it has one (R162, R166, R175, R178). -/
def parRequest : OpRequest := { breaker := b, action := a, requester := .block .par, sync := r }

/-- The record that an accepted request of PAR's makes (R107). -/
def Dev.parCommand : CmdRecord :=
  { id := (d.breaker b).nextId, action := a, prot := false, requester := .block .par, issue := d.now, repeatNo := 0
    nextRepeat := after d.now 2, opEnd := after d.now (d.breakerCfg b).timeout, bfEnd := none, bfOperated := false
    tellChg := false }

/-- The device after an accepted request of PAR's (R102, R107). -/
def Dev.parStarted : Dev := (d.parClaimed b).startRecord b a false false (.block .par)

/-- A breaker that PAR's accepted request has claimed and commanded (R102, R107). -/
def Dev.parCommanded : BreakerRec :=
  { d.breaker b with
    claim := some .par, releasePending := false, nextId := (d.breaker b).nextId + 1, record := some (d.parCommand b a) }

theorem parStarted_breaker : (d.parStarted b a).breaker b = d.parCommanded b a := by
  have record : (d.parClaimed b).makeRecord b a false false (.block .par) = d.parCommand b a := by
    rw [Dev.makeRecord, parClaimed_breaker]
    rfl
  rw [Dev.parStarted, startRecord_breaker, record, parClaimed_breaker]
  rfl

theorem parStarted_other {x : Fin 24} (other : x ≠ b) : (d.parStarted b a).breaker x = d.breaker x :=
  (other_startRecord _ _ _ _ _ _ _ other).trans (other_modBreaker _ _ _ _ other)

theorem parStarted_shell : (d.parStarted b a).shell = d.shell := shell_startRecord _ _ _ _ _ _

theorem parStarted_par : (d.parStarted b a).par = d.par :=
  show (d.parStarted b a).shell.par = d.shell.par by rw [parStarted_shell]

/-! ## SWM's answer to PAR (R104 to R106) -/

theorem decideRequest_par_busy (active : (d.breaker b).record.isSome = true) :
    d.decideRequest (parRequest b a r) = some .busy := by
  obtain ⟨c, record⟩ := Option.isSome_iff_exists.mp active
  simp [Dev.decideRequest, parRequest, record]

theorem requestClaimed_par_accepted (granted : d.claim b .par = (.granted, d.parClaimed b))
    (accepted : (d.parClaimed b).decideRequest (parRequest b a r) = none) :
    d.requestClaimed (parRequest b a r) .par = (.ok (d.breaker b).nextId, d.parStarted b a) := by
  have idle : ((d.parClaimed b).breaker b).record = none := by
    cases record : ((d.parClaimed b).breaker b).record with
    | none => rfl
    | some c =>
      rw [decideRequest_par_busy (d.parClaimed b) b a r (by rw [record]; rfl)] at accepted
      cases accepted
  have id : ((d.parClaimed b).breaker b).nextId = (d.breaker b).nextId := by rw [parClaimed_breaker]
  rw [Dev.requestClaimed, show (parRequest b a r).breaker = b from rfl, granted]
  simp only [accepted, Dev.accept, show (parRequest b a r).breaker = b from rfl, idle, id]
  rfl

theorem request_par_eq : d.request (parRequest b a r) =
    if (!(d.breakerCfg b).used) = true then (.error .permissive, d)
    else if d.mode = .service ∧ Holder.par ≠ .mgt then (.error .mode, d)
    else d.requestClaimed (parRequest b a r) .par := rfl

/-- What a request of PAR's can come to: a refusal that changes nothing, one that gives a claim back, or its record. -/
theorem request_par_cases : (∃ e, d.request (parRequest b a r) = (.error e, d)) ∨
    (∃ e, d.request (parRequest b a r) = (.error e, (d.parClaimed b).dropClaim b)) ∨
    d.request (parRequest b a r) = (.ok (d.breaker b).nextId, d.parStarted b a) := by
  rw [request_par_eq]
  split
  · exact .inl ⟨_, rfl⟩
  split
  · exact .inl ⟨_, rfl⟩
  · rcases claim_par_cases d b with granted | ⟨o, other, refused⟩
    · cases decision : (d.parClaimed b).decideRequest (parRequest b a r) with
      | none => exact .inr (.inr (requestClaimed_par_accepted d b a r granted decision))
      | some e =>
        rw [Dev.requestClaimed, show (parRequest b a r).breaker = b from rfl, granted]
        simp only [decision]
        split
        · exact .inr (.inl ⟨e, rfl⟩)
        · exact .inl ⟨e, rfl⟩
    · rw [Dev.requestClaimed, show (parRequest b a r).breaker = b from rfl, refused]
      cases o
      · exact absurd rfl other
      · exact .inl ⟨_, rfl⟩
      · exact .inl ⟨_, rfl⟩

/-- A request of PAR's keeps what is reported and the error list. -/
theorem request_par_keeps : (∀ x ∈ d.work, x ∈ (d.request (parRequest b a r)).2.work) ∧
    (d.request (parRequest b a r)).2.mgt.errors = d.mgt.errors := by
  rcases request_par_cases d b a r with ⟨e, same⟩ | ⟨e, dropped⟩ | started
  · rw [same]
    exact ⟨fun _ member => member, rfl⟩
  · rw [dropped]
    exact ⟨fun _ member => mem_work_push (d := (d.parClaimed b).modBreaker b _) member _, rfl⟩
  · rw [started]
    exact ⟨fun _ member => by rwa [Dev.parStarted, startRecord_work], startRecord_errors _ _ _ _ _ _⟩

variable {d b}

theorem request_par_accepted (takes : d.takesOpen b) (accepted : (d.parClaimed b).decideRequest (parRequest b a r) = none) :
    d.request (parRequest b a r) = (.ok (d.breaker b).nextId, d.parStarted b a) := by
  rw [request_par_eq, if_neg (by rw [takes.used]; nofun), if_neg (fun service => takes.mode service.1)]
  exact requestClaimed_par_accepted d b a r (claim_par_granted takes) accepted

theorem request_par_open (takes : d.takesOpen b) :
    d.request (parRequest b .openIt none) = (.ok (d.breaker b).nextId, d.parStarted b .openIt) := by
  refine request_par_accepted .openIt none takes ?_
  have idle : ((d.parClaimed b).breaker b).record = none := by rw [parClaimed_breaker]; exact takes.record
  simp only [Dev.decideRequest, show (parRequest b .openIt none).breaker = b from rfl, idle]
  rfl

/-- The permission of R105 for PAR. -/
theorem closeRefusal_par (takes : d.takesClose b) : (d.parClaimed b).closeRefusal b .par = none := by
  have unlocked : (d.parClaimed b).locked b = false := decide_eq_false (not_not.mpr takes.free)
  have unblocked : (d.parClaimed b).sideBlocked b = false := takes.unblocked
  simp [Dev.closeRefusal, unlocked, unblocked, parClaimed_breaker, parClaimed_position, parClaimed_permissive, takes.remote,
    takes.spring, takes.isOpen, takes.permitted]

/-- The class of R106 for PAR: a CLOSE between two LIVE sides wants the synchroniser's result of this instant. -/
theorem classify_par (known1 : (d.sides b).1 ≠ .indeterminate) (known2 : (d.sides b).2 ≠ .indeterminate)
    (synchronous : ¬ ((d.sides b).1 = .live ∧ (d.sides b).2 = .live) ∨ d.syncValid b r = true) :
    (d.parClaimed b).classify b .par r = none := by
  have valid : (d.parClaimed b).syncValid b r = d.syncValid b r := rfl
  unfold Dev.classify
  rw [parClaimed_sides, valid]
  rcases h : d.sides b with ⟨x, y⟩
  rw [h] at known1 known2 synchronous
  cases x <;> cases y <;> simp_all

theorem request_par_close (takes : d.takesClose b) (known1 : (d.sides b).1 ≠ .indeterminate)
    (known2 : (d.sides b).2 ≠ .indeterminate)
    (synchronous : ¬ ((d.sides b).1 = .live ∧ (d.sides b).2 = .live) ∨ d.syncValid b r = true) :
    d.request (parRequest b .closeIt r) = (.ok (d.breaker b).nextId, d.parStarted b .closeIt) := by
  refine request_par_accepted .closeIt r takes.totakesOpen ?_
  have idle : ((d.parClaimed b).breaker b).record = none := by rw [parClaimed_breaker]; exact takes.record
  simp only [Dev.decideRequest, parRequest, idle, OpRequest.block, Bool.false_eq_true, if_false, closeRefusal_par takes]
  exact classify_par r known1 known2 synchronous

end
end Sys2Proof.Machine

/-!
What the moves of one set, its requests and its failure leave alone of the other sets and of all that no set touches
(`Dev.besideSet`).
-/
namespace Sys2Proof.Machine

/-! ## The view -/

/-- The synchroniser, as long as it serves CHG's bus request: which it serves, and nothing where it serves none. -/
def Sync.busServed (y : Sync) : Sync :=
  match y.served with
  | some (.bus r) => { served := some (.bus r) }
  | _ => {}

/-- What no move, request or failure of a set touches: `Dev.besideSets`, the other sets and the bus request in service. -/
def Dev.besideSet (d : Dev) (g : Fin 6) : Dev :=
  { d.shell with par := { d.par.periodic with gens := tset d.par.gens g {}, sync := d.par.sync.busServed } }

section
variable {d e : Dev} {g : Fin 6}

theorem besideSet_of_shell (h : d.shell = e.shell) : d.besideSet g = e.besideSet g :=
  show d.shell.besideSet g = e.shell.besideSet g by rw [h]

theorem besideSet_of_bare (h : d.bare = e.bare) : d.besideSet g = e.besideSet g := besideSet_of_shell (shell_of_bare h)

theorem besideSets_of_besideSet (h : d.besideSet g = e.besideSet g) : d.besideSets = e.besideSets :=
  show (d.besideSet g).besideSets = (e.besideSet g).besideSets by rw [h]

theorem gen_of_besideSet (h : d.besideSet g = e.besideSet g) {k : Fin 6} (other : k ≠ g) : d.gen k = e.gen k := by
  have kept (x : Dev) : (x.besideSet g).gen k = x.gen k := tget_tset_ne _ _ _ _ other
  rw [← kept d, h, kept e]

theorem frequencyTerm_of_besideSet (h : d.besideSet g = e.besideSet g) : d.frequencyTerm = e.frequencyTerm := by
  have adjusting (x : Dev) : (x.besideSet g).busAdjusting = x.busAdjusting := by
    show (match x.par.sync.busServed.served with | some (.bus r) => r.adjust | _ => false) = _
    unfold Dev.busAdjusting Sync.busServed
    cases x.par.sync.served with
    | none => rfl
    | some r => cases r <;> rfl
  have kept (x : Dev) : (x.besideSet g).frequencyTerm = x.frequencyTerm := by
    unfold Dev.frequencyTerm
    rw [adjusting]
    rfl
  rw [← kept d, h, kept e]

end

/-! ## The operations of a set -/

section
variable (d : Dev) (g : Fin 6) (b : Fin 24)

theorem besideSet_modGen (f : GenRec → GenRec) : (d.modGen g f).besideSet g = d.besideSet g := by
  have gens : tset (tmod d.par.gens g f) g {} = tset d.par.gens g {} := by simp only [tmod, tset, Vector.set_set]
  exact congrArg (fun v => ({ d.shell with par := { d.par.periodic with gens := v, sync := d.par.sync.busServed } } : Dev)) gens

theorem besideSet_endService (serves : d.servesGen g = true) : d.endService.besideSet g = d.besideSet g := by
  have served : d.par.sync.served = some (.gen g) := of_decide_eq_true serves
  have none : d.par.sync.busServed = {} := by rw [Sync.busServed, served]
  unfold Dev.besideSet
  rw [none]
  rfl

theorem besideSet_leaveGrant (state : GenState) : (d.leaveGrant state).besideSet g = d.besideSet g := by
  unfold Dev.leaveGrant
  split <;> rfl

theorem besideSet_moveGen (state : GenState) (f : GenRec → GenRec) : (d.moveGen g state f).besideSet g = d.besideSet g :=
  (moveGen_view d g state f (Dev.besideSet · g) (fun x _ _ => besideSet_leaveGrant x g state)
    (fun x serves _ _ => besideSet_endService x g serves) (fun _ _ => rfl)).trans (besideSet_modGen d g _)

theorem besideSet_request (q : OpRequest) : (d.request q).2.besideSet g = d.besideSet g := besideSet_of_shell (shell_request d q)

theorem besideSet_releaseClaim (h : Holder) : (d.releaseClaim b h).besideSet g = d.besideSet g :=
  besideSet_of_shell (shell_releaseClaim d b h)

theorem besideSet_sendSetpoint (run : Bool) (speed volt : Int) : (d.sendSetpoint g run speed volt).besideSet g = d.besideSet g :=
  besideSet_of_bare (bare_sendSetpoint d g run speed volt)

end
end Sys2Proof.Machine

/-!
The failure of a set (R178) step by step: its move, its breaker given up, the STOP sent and the failure listed, each with what it
leaves alone.
-/
namespace Sys2Proof.Machine

/-! ## The OPEN of a failed set's breaker (R178, step 3) -/

/-- A set's record without what it keeps of its commands. -/
def GenRec.unasked (r : GenRec) : GenRec := { r with cmdId := none, openOnDone := false }

section
variable (d : Dev) (g : Fin 6) (b : Fin 24)

theorem Dev.modGen_id : d.modGen g id = d := by
  have table : tmod d.par.gens g id = d.par.gens := tset_tget _ _
  rw [Dev.modGen, table]

theorem openUnjudged_cases : ∃ f : GenRec → GenRec, (∀ r, (f r).unasked = r.unasked) ∧
    d.openUnjudged g b = (d.request (parRequest b .openIt none)).2.modGen g f := by
  unfold Dev.openUnjudged
  split
  next id x asked =>
    have asked : d.request (parRequest b .openIt none) = (.ok id, x) := asked
    exact ⟨fun r => { r with cmdId := some id }, fun _ => rfl, by rw [asked]⟩
  next e x asked =>
    have asked : d.request (parRequest b .openIt none) = (.error e, x) := asked
    exact ⟨id, fun _ => rfl, by rw [asked, Dev.modGen_id]⟩

/-- The OPEN is asked for or not, and beside that the set's record notes what it waits for. -/
theorem openFailed_cases : ∃ (x : Dev) (f : GenRec → GenRec), (x = d ∨ x = (d.request (parRequest b .openIt none)).2) ∧
    (∀ r, (f r).unasked = r.unasked) ∧ d.openFailed g b = x.modGen g f := by
  have still : ∃ (x : Dev) (f : GenRec → GenRec), (x = d ∨ x = (d.request (parRequest b .openIt none)).2) ∧
      (∀ r, (f r).unasked = r.unasked) ∧ d = x.modGen g f := ⟨d, id, .inl rfl, fun _ => rfl, (Dev.modGen_id d g).symm⟩
  unfold Dev.openFailed
  split
  · exact ⟨d, fun r => { r with openOnDone := true }, .inl rfl, fun _ => rfl, rfl⟩
  · exact still
  · split
    · obtain ⟨f, keeps, asked⟩ := openUnjudged_cases d g b
      exact ⟨_, f, .inr rfl, keeps, asked⟩
    · exact still

/-- What the giving up of its breaker keeps of a set: its record but for its commands, the other sets, the reports and the errors. -/
structure Dev.keepsSet (x d : Dev) (g : Fin 6) : Prop where
  own    : (x.gen g).unasked = (d.gen g).unasked
  beside : x.besideSet g = d.besideSet g
  work   : ∀ r ∈ d.work, r ∈ x.work
  errors : x.mgt.errors = d.mgt.errors

theorem openFailed_keeps : (d.openFailed g b).keepsSet d g := by
  obtain ⟨x, f, source, keeps, opened⟩ := openFailed_cases d g b
  have own : ((x.modGen g f).gen g).unasked = (x.gen g).unasked := by rw [Dev.modGen_gen_same, keeps]
  rw [opened]
  rcases source with rfl | rfl
  · exact ⟨own, besideSet_modGen x g f, fun _ member => member, rfl⟩
  · obtain ⟨work, errors⟩ := request_par_keeps d b .openIt none
    exact ⟨own.trans (congrArg GenRec.unasked (gen_of_shell (shell_request d _))),
      (besideSet_modGen _ g f).trans (besideSet_request d g _), work, errors⟩

variable {d g b}

/-- A conducting breaker for which PAR has no record is opened, where SWM takes the OPEN. -/
theorem openFailed_opens (takes : d.takesOpen b) (conducts : d.position b = .closed ∨ d.position b = .travelling) :
    (d.openFailed g b).breaker b = d.parCommanded b .openIt := by
  have none : d.parRecord b = none := by rw [Dev.parRecord, takes.record]
  have asked : d.openUnjudged g b =
      (d.parStarted b .openIt).modGen g (fun r => { r with cmdId := some (d.breaker b).nextId }) := by
    unfold Dev.openUnjudged
    rw [show d.request { breaker := b, action := .openIt, requester := .block .par } = _ from request_par_open takes]
  have opened : d.openFailed g b = d.openUnjudged g b := by
    unfold Dev.openFailed
    rw [none]
    exact if_pos conducts
  rw [opened, asked]
  exact parStarted_breaker d b .openIt

theorem openFailed_rests (idle : (d.breaker b).record = none) (apart : d.position b ≠ .closed ∧ d.position b ≠ .travelling) :
    d.openFailed g b = d := by
  have none : d.parRecord b = none := by rw [Dev.parRecord, idle]
  unfold Dev.openFailed
  rw [none]
  exact if_neg (by rintro (closed | travelling); exacts [apart.1 closed, apart.2 travelling])

theorem parCommanded_of_besidePar {d e : Dev} (h : d.besidePar = e.besidePar) (b : Fin 24) (a : Action) :
    d.parCommanded b a = e.parCommanded b a :=
  show d.besidePar.parCommanded b a = e.besidePar.parCommanded b a by rw [h]

/-! ## The release of a breaker (R102, R103) -/

theorem releaseClaim_waits (claim : (d.breaker b).claim = some .par) (own : (d.breaker b).ownRecord .par = true) :
    (d.releaseClaim b .par).breaker b = { d.breaker b with releasePending := true } := by
  rw [Dev.releaseClaim, if_pos claim, if_pos own, Dev.modBreaker_breaker_same]

theorem releaseClaim_drops (claim : (d.breaker b).claim = some .par) (idle : (d.breaker b).record = none) :
    d.releaseClaim b .par = d.dropClaim b := by
  have none : (d.breaker b).ownRecord .par = false := by rw [BreakerRec.ownRecord, idle]; rfl
  rw [Dev.releaseClaim, if_pos claim, if_neg (by rw [none]; nofun)]

theorem dropClaim_breaker : (d.dropClaim b).breaker b = { d.breaker b with claim := none, releasePending := false } :=
  Dev.modBreaker_breaker_same d b _

end

/-! ## The steps of a failure (R178) -/

section
variable (d : Dev) (g : Fin 6) (reason : GenReason)

/-- The set's move to FAILED. -/
def Dev.failMoved : Dev := d.moveGen g .failed (fun r => { r with reason := reason, wantClaim := false })

theorem failMoved_besidePar : (d.failMoved g reason).besidePar = d.besidePar := moveGen_besidePar d g _ _

/-- Its breaker is opened if it conducts, and released (step 3). -/
def Dev.breakerGivenUp : Dev :=
  match d.genBreaker g with
  | some b => (d.openFailed g b).releaseClaim b .par
  | none => d

/-- STOP is sent, but not to a controller in MANUAL. -/
def Dev.stopSent : Dev := if reason = .manual then d else d.sendSetpoint g false 0 0

/-- The failure is listed, and its notice queued. -/
def Dev.genFailureListed (left : GenState) : Dev := (d.recordError .genFailed g.val).genNotice g reason left

theorem failGen_failed (failed : (d.gen g).state = .failed) : d.failGen g reason = d := if_pos failed

variable {d g} in
theorem failGen_eq (sound : (d.gen g).state ≠ .failed) : d.failGen g reason =
    ((((d.failMoved g reason).breakerGivenUp g).stopSent g reason).modGen g GenRec.zero).genFailureListed g reason
      (d.gen g).state := if_neg sound

theorem bare_stopSent : (d.stopSent g reason).bare = d.bare := by
  unfold Dev.stopSent
  split
  · rfl
  · exact bare_sendSetpoint _ _ _ _ _

theorem bare_genFailureListed (left : GenState) : (d.genFailureListed g reason left).bare = d.bare :=
  (bare_queueNotice _ _ _ _).trans (bare_recordError _ _ _)

theorem breakerGivenUp_keeps : (d.breakerGivenUp g).keepsSet d g := by
  unfold Dev.breakerGivenUp
  split
  next b _ =>
    have opened := openFailed_keeps d g b
    exact ⟨(congrArg GenRec.unasked (gen_of_shell (shell_releaseClaim _ b .par))).trans opened.own,
      (besideSet_releaseClaim _ g b .par).trans opened.beside, fun r member => mem_work_releaseClaim (opened.work r member) .par,
      (congrArg Mgt.errors (releaseClaim_beside _ b .par).2).trans opened.errors⟩
  · exact ⟨rfl, rfl, fun _ member => member, rfl⟩

variable {d g} in
theorem breakerGivenUp_some {b : Fin 24} (named : d.genBreaker g = some b) :
    d.breakerGivenUp g = (d.openFailed g b).releaseClaim b .par := by
  rw [Dev.breakerGivenUp, named]

end

/-! ## What a failed set is -/

section
variable {d : Dev} {g : Fin 6} (reason : GenReason)

/-- But for its last two steps, which run ports, a failure is the set's move, its breaker given up and its biases cleared. -/
theorem failGen_bare (sound : (d.gen g).state ≠ .failed) :
    (d.failGen g reason).bare = (((d.failMoved g reason).breakerGivenUp g).modGen g GenRec.zero).bare := by
  rw [failGen_eq reason sound, bare_genFailureListed]
  exact congrArg (fun x : Dev => x.modGen g GenRec.zero) (bare_stopSent _ g reason)

theorem failGen_own (sound : (d.gen g).state ≠ .failed) : ((d.failGen g reason).gen g).unasked =
    { (d.gen g).zero.unasked with state := .failed, timer := none, reason := reason, wantClaim := false } := by
  have moved : (d.failMoved g reason).gen g = _ := moveGen_own d g _ _
  rw [GenRec.moved_outside _ rfl] at moved
  rw [gen_of_bare (failGen_bare reason sound), Dev.modGen_gen_same]
  calc (((d.failMoved g reason).breakerGivenUp g).gen g).zero.unasked
    _ = (((d.failMoved g reason).breakerGivenUp g).gen g).unasked.zero := rfl
    _ = ((d.failMoved g reason).gen g).unasked.zero := by rw [(breakerGivenUp_keeps _ g).own]
    _ = _ := by rw [moved]; rfl

/-- A set that has failed: FAILED for its reason, with no timer, biases or targets (R178). -/
theorem failGen_record (sound : (d.gen g).state ≠ .failed) : ((d.failGen g reason).gen g).state = .failed ∧
    ((d.failGen g reason).gen g).reason = reason ∧ ((d.failGen g reason).gen g).timer = none ∧
    ((d.failGen g reason).gen g).speed = 0 ∧ ((d.failGen g reason).gen g).volt = 0 ∧ ((d.failGen g reason).gen g).load = 0 ∧
    ((d.failGen g reason).gen g).reactive = 0 := by
  have own := failGen_own reason sound
  exact ⟨(congrArg GenRec.state own :), (congrArg GenRec.reason own :), (congrArg GenRec.timer own :),
    (congrArg GenRec.speed own :), (congrArg GenRec.volt own :), (congrArg GenRec.load own :), (congrArg GenRec.reactive own :)⟩

theorem besideSet_failGen (d : Dev) (g : Fin 6) : (d.failGen g reason).besideSet g = d.besideSet g := by
  by_cases failed : (d.gen g).state = .failed
  · rw [failGen_failed d g reason failed]
  · rw [besideSet_of_bare (failGen_bare reason failed), besideSet_modGen, (breakerGivenUp_keeps _ g).beside]
    exact besideSet_moveGen d g _ _

theorem mem_work_failGen (sound : (d.gen g).state ≠ .failed) {r : Report} (member : r ∈ (d.failMoved g reason).work) :
    r ∈ (d.failGen g reason).work := by
  rw [work_of_bare (failGen_bare reason sound)]
  exact (breakerGivenUp_keeps _ g).work r member

/-! ## What a failure lists and sends -/

theorem failGen_listed (sound : (d.gen g).state ≠ .failed) (room : d.mgt.errors.length < 15) :
    errorListed (d.failGen g reason).mgt.errors .genFailed g.val = true := by
  have moved : (d.failMoved g reason).mgt = d.mgt := mgt_of_besidePar (failMoved_besidePar d g reason)
  have errors : (((d.failMoved g reason).breakerGivenUp g).stopSent g reason).mgt.errors = d.mgt.errors := by
    unfold Dev.stopSent
    split
    · rw [(breakerGivenUp_keeps _ g).errors, moved]
    · rw [Dev.sendSetpoint, Dev.enqueueSetpoint, runPort_errors]
      exact (breakerGivenUp_keeps _ g).errors.trans (congrArg Mgt.errors moved)
  rw [failGen_eq reason sound]
  generalize ((d.failMoved g reason).breakerGivenUp g).stopSent g reason = x at errors ⊢
  have span : errorSpan (x.modGen g GenRec.zero).mgt.errors < 16 :=
    Nat.lt_of_le_of_lt (errorSpan_le _) (Nat.succ_lt_succ (errors ▸ room))
  refine queueNotice_keeps ?_ (recordError_listed (.inr (errors ▸ room)) _) _ _ _
  exact (recordError_span span _ _).trans span

theorem queueNotice_setpoints (d : Dev) (kind subject : Nat) (detail : List Byte) :
    (d.queueNotice kind subject detail).lnk.setpoints = d.lnk.setpoints := by
  have run (e : Dev) : (e.runPort .p2).lnk.setpoints = e.lnk.setpoints :=
    (congrArg (fun y => y.lnk.setpoints) (runPort_besideRun e .p2) :)
  unfold Dev.queueNotice
  split
  · rfl
  · dsimp only
    rw [run]
    split <;> rfl

theorem genFailureListed_setpoints (d : Dev) (g : Fin 6) (left : GenState) :
    (d.genFailureListed g reason left).lnk.setpoints = d.lnk.setpoints := by
  refine (queueNotice_setpoints _ _ _ _).trans ?_
  unfold Dev.recordError
  split
  · rfl
  · exact queueNotice_setpoints _ _ _ _

theorem setpointFrame_of_besideSets {d e : Dev} (h : d.besideSets = e.besideSets) (g : Fin 6) (run : Bool) (speed volt : Int) :
    d.setpointFrame g run speed volt = e.setpointFrame g run speed volt :=
  show d.besideSets.setpointFrame g run speed volt = e.besideSets.setpointFrame g run speed volt by rw [h]

/-- While P1 sends, the STOP of a failed set waits in the setpoint queue. -/
theorem failGen_stop (sound : (d.gen g).state ≠ .failed) (automatic : reason ≠ .manual) (busy : d.portBusy .p1) :
    (g, d.setpointFrame g false 0 0) ∈ (d.failGen g reason).lnk.setpoints := by
  have beside : ((d.failMoved g reason).breakerGivenUp g).besideSet g = d.besideSet g :=
    (breakerGivenUp_keeps _ g).beside.trans (besideSet_moveGen d g _ _)
  have sends : ((d.failMoved g reason).breakerGivenUp g).portBusy .p1 := by
    have moved := sending_inner.moveGen g .failed (fun r => { r with reason := reason, wantClaim := false }) (fun _ => ⟨rfl, id⟩)
      (d := d) ⟨busy.up, busy.tx⟩
    unfold Dev.breakerGivenUp
    split
    next b _ =>
      obtain ⟨up, tx⟩ := sending_inner.releaseClaim b .par (sending_inner.openFailed g b moved)
      exact ⟨up, tx⟩
    · exact ⟨moved.1, moved.2⟩
  rw [failGen_eq reason sound, genFailureListed_setpoints, ← setpointFrame_of_besideSets (besideSets_of_besideSet beside)]
  generalize (d.failMoved g reason).breakerGivenUp g = x at sends ⊢
  show _ ∈ (x.stopSent g reason).lnk.setpoints
  rw [Dev.stopSent, if_neg automatic, Dev.sendSetpoint, enqueueSetpoint_held (.inl sends)]
  exact mem_putKey_same _ _ _

/-! ## The breaker of a failed set -/

variable {b : Fin 24}

theorem failGen_breaker (sound : (d.gen g).state ≠ .failed) (named : d.genBreaker g = some b) : (d.failGen g reason).breaker b =
    (((d.failMoved g reason).openFailed g b).releaseClaim b .par).breaker b := by
  have named' : (d.failMoved g reason).genBreaker g = some b :=
    (genBreaker_of_besidePar (failMoved_besidePar d g reason)).trans named
  rw [breaker_of_bare (failGen_bare reason sound), ← breakerGivenUp_some named']
  rfl

/-- The OPEN of a conducting breaker is PAR's own record, for whose end the release waits (R103, R178). -/
theorem failGen_opens (sound : (d.gen g).state ≠ .failed) (named : d.genBreaker g = some b) (takes : d.takesOpen b)
    (conducts : d.position b = .closed ∨ d.position b = .travelling) :
    (d.failGen g reason).breaker b = { d.parCommanded b .openIt with releasePending := true } := by
  have beside := failMoved_besidePar d g reason
  have opened := openFailed_opens (g := g) (takesOpen_of_besidePar beside takes) ((position_of_besidePar beside).symm ▸ conducts)
  rw [parCommanded_of_besidePar beside] at opened
  rw [failGen_breaker reason sound named, releaseClaim_waits (by rw [opened]; rfl) (by rw [opened]; rfl), opened]

theorem failGen_releases (sound : (d.gen g).state ≠ .failed) (named : d.genBreaker g = some b)
    (claim : (d.breaker b).claim = some .par) (idle : (d.breaker b).record = none)
    (apart : d.position b ≠ .closed ∧ d.position b ≠ .travelling) : ((d.failGen g reason).breaker b).claim = none ∧
      ((d.failGen g reason).breaker b).record = none ∧ .claimReleased b ∈ (d.failGen g reason).work := by
  have beside := failMoved_besidePar d g reason
  have same : (d.failMoved g reason).breaker b = d.breaker b := breaker_of_besidePar beside
  have named' : (d.failMoved g reason).genBreaker g = some b := (genBreaker_of_besidePar beside).trans named
  have rests := openFailed_rests (g := g) (d := d.failMoved g reason) (same ▸ idle) ((position_of_besidePar beside).symm ▸ apart)
  have drops := releaseClaim_drops (d := d.failMoved g reason) (same ▸ claim) (same ▸ idle)
  rw [failGen_breaker reason sound named, work_of_bare (failGen_bare reason sound), breakerGivenUp_some named', rests, drops,
    dropClaim_breaker]
  refine ⟨rfl, ?_, mem_work_self (d := (d.failMoved g reason).modBreaker b _) _⟩
  rw [same]
  exact idle

end
end Sys2Proof.Machine

/-!
Load sharing (R170 to R172), unloading (R173, R174) and O60: what each set's turn of a period makes of its record, and that no other
set's turn changes it.
-/
namespace Sys2Proof.Machine

/-! ## Turns that leave the other sets alone -/

/-- What an entry's own turn brings about, where the turns before it keep what it starts from and those after it its result. -/
theorem forEach_turn {α β : Type} {P Q : β → Prop} {f : α → β → β} {x : α} (before : ∀ y b, y ≠ x → P b → P (f y b))
    (own : ∀ b, P b → Q (f x b)) (later : ∀ y b, y ≠ x → Q b → Q (f y b)) {xs : List α} (once : xs.Nodup) (member : x ∈ xs)
    {b : β} (start : P b) : Q (forEach xs f b) := by
  have kept (ys : List α) (fresh : x ∉ ys) (b : β) (h : Q b) : Q (forEach ys f b) := by
    induction ys generalizing b with
    | nil => exact h
    | cons y ys ih =>
      obtain ⟨apart, fresh⟩ := not_or.mp (mt List.mem_cons.mpr fresh)
      exact ih fresh _ (later y b (Ne.symm apart) h)
  induction xs generalizing b with
  | nil => cases member
  | cons y ys ih =>
    obtain ⟨fresh, once⟩ := List.nodup_cons.mp once
    by_cases same : y = x
    · subst same
      exact kept ys fresh _ (own b start)
    · exact ih once ((List.mem_cons.mp member).resolve_left (Ne.symm same)) (before y b same start)

/-- Turns that each change their own set's record. -/
theorem forEach_modGen (f : Fin 6 → GenRec → GenRec) {gs : List (Fin 6)} (once : gs.Nodup) (d : Dev) (k : Fin 6) :
    (forEach gs (fun g x => x.modGen g (f g)) d).gen k = if k ∈ gs then f k (d.gen k) else d.gen k :=
  forEach_own (I := fun _ => True) (get := Dev.gen) (fun _ _ _ => trivial) (fun y b _ => Dev.modGen_gen_same b y (f y))
    (fun y b z other => Dev.modGen_gen_ne b y z (f y) other) once trivial k

section
variable (d : Dev) (g : Fin 6)

theorem mem_onBusSets : g ∈ d.onBusSets ↔ (d.gen g).state = .onBus := by simp [Dev.onBusSets, idsWhere]

theorem onBusSets_nodup : d.onBusSets.Nodup := List.Nodup.filter _ (List.nodup_finRange 6)

/-! ## Sharing (R170 to R172) -/

/-- The sets that share: those ON_BUS with valid power. -/
def Dev.sharingSets : List (Fin 6) := d.onBusSets.filter (fun k => (d.genPower k).2.2)

/-- A set's part of a total, by its rating among those of the sets that share (R170, R171). -/
def Dev.partOf (total : Int) : Int :=
  truncDiv (total * (d.ratingInUse g : Nat)) ((d.sharingSets.map d.ratingInUse).sum : Nat)

/-- The load target of a set that shares (R170; notes/assumptions/20.md). -/
def Dev.loadShare : Int := max 0 (d.partOf g (d.sharingSets.map (fun k => (d.genPower k).1)).sum)

/-- The reactive target of a set that shares (R171). -/
def Dev.reactiveShare : Int := d.partOf g (d.sharingSets.map (fun k => (d.genPower k).2.1)).sum

/-- What islanded sharing makes of an ON_BUS set's record (R170, R171). -/
def Dev.islandedShare (r : GenRec) : GenRec :=
  if (d.genPower g).2.2 then
    ({ r with load := d.loadShare g, reactive := d.reactiveShare g }.addSpeed
      (d.loadTerm g (d.loadShare g) (d.genPower g).1 - d.frequencyTerm)).addVolt
      (truncDiv ((d.reactiveShare g - (d.genPower g).2.1) * d.tab.par.gq) (d.ratingInUse g : Nat))
  else r.addSpeed (-d.frequencyTerm)

/-- What sharing with a utility makes of an ON_BUS set's record (R172). -/
def Dev.paralleledShare (r : GenRec) : GenRec :=
  if (d.genPower g).2.2 then r.addSpeed (d.loadTerm g r.load (d.genPower g).1) else r

theorem shareIslanded_eq : d.shareIslanded = forEach d.onBusSets (fun k x => x.modGen k (d.islandedShare k)) d := by
  have turn (k : Fin 6) (x : Dev) : x.modGen k (d.islandedShare k) = if (d.genPower k).2.2 then
      x.modGen k (fun r => ({ r with load := d.loadShare k, reactive := d.reactiveShare k }.addSpeed
        (d.loadTerm k (d.loadShare k) (d.genPower k).1 - d.frequencyTerm)).addVolt
        (truncDiv ((d.reactiveShare k - (d.genPower k).2.1) * d.tab.par.gq) (d.ratingInUse k : Nat)))
      else x.modGen k (fun r => r.addSpeed (-d.frequencyTerm)) := by
    split
    next valid => exact congrArg (x.modGen k) (funext fun r => if_pos valid)
    next invalid => exact congrArg (x.modGen k) (funext fun r => if_neg invalid)
  unfold Dev.shareIslanded
  dsimp only
  rw [← List.sum_eq_foldl, ← List.sum_eq_foldl]
  exact congrArg (fun f => forEach d.onBusSets f d) (funext fun k => funext fun x => (turn k x).symm)

theorem shareParalleled_eq : d.shareParalleled = forEach d.onBusSets (fun k x => x.modGen k (d.paralleledShare k)) d := by
  have turn (k : Fin 6) (x : Dev) : x.modGen k (d.paralleledShare k) = if (d.genPower k).2.2 then
      x.modGen k (fun r => r.addSpeed (d.loadTerm k r.load (d.genPower k).1)) else x := by
    split
    next valid => exact congrArg (x.modGen k) (funext fun r => if_pos valid)
    next invalid =>
      rw [show d.paralleledShare k = id from funext fun r => if_neg invalid]
      exact Dev.modGen_id x k
  exact congrArg (fun f => forEach d.onBusSets f d) (funext fun k => funext fun x => (turn k x).symm)

/-- The determination changes no set and nothing that sharing is made from. -/
theorem share_gen : d.share.gen g = if (d.gen g).state = .onBus then
    if d.genBusIslanded then d.islandedShare g (d.gen g) else d.paralleledShare g (d.gen g) else d.gen g := by
  set e : Dev := { d with par := { d.par with islanded := d.genBusIslanded } } with he
  have islanded : e.islandedShare = d.islandedShare := rfl
  have paralleled : e.paralleledShare = d.paralleledShare := rfl
  have record : e.gen g = d.gen g := rfl
  have shared : d.share = if d.genBusIslanded then e.shareIslanded else e.shareParalleled := rfl
  rw [shared]
  split
  next h =>
    rw [shareIslanded_eq, forEach_modGen _ (onBusSets_nodup e), islanded, record]
    simp only [mem_onBusSets, record]
  next h =>
    rw [shareParalleled_eq, forEach_modGen _ (onBusSets_nodup e), paralleled, record]
    simp only [mem_onBusSets, record]

/-! ## The frequency term (R170) -/

theorem busAdjusting_iff : d.busAdjusting = true ↔ ∃ q, d.par.sync.served = some (.bus q) ∧ q.adjust = true := by
  unfold Dev.busAdjusting
  cases d.par.sync.served with
  | none => simp
  | some r => cases r <;> simp

variable {d} in
theorem frequencyTerm_unique {freq : Int}
    (omitted : (d.deviation (d.genBus.bind d.busGroup)).2 = false ∨
      (∃ q, d.par.sync.served = some (.bus q) ∧ q.adjust = true) → freq = 0)
    (counted : (d.deviation (d.genBus.bind d.busGroup)).2 = true →
      (∀ q, d.par.sync.served = some (.bus q) → q.adjust = false) →
        freq = Int.tdiv ((d.deviation (d.genBus.bind d.busGroup)).1 * d.tab.par.gf) 100) : freq = d.frequencyTerm := by
  rw [← busAdjusting_iff] at omitted
  have apart : (∀ q, d.par.sync.served = some (.bus q) → q.adjust = false) ↔ d.busAdjusting = false := by
    rw [← Bool.not_eq_true, busAdjusting_iff]
    simp
  rw [apart] at counted
  unfold Dev.frequencyTerm truncDiv
  cases valid : (d.deviation (d.genBus.bind d.busGroup)).2 with
  | false => simp [valid, omitted]
  | true => cases adjusts : d.busAdjusting <;> simp [valid, adjusts, omitted, counted]

/-! ## Unloading (R173, R174) -/

/-- An UNLOADING set's record after a period that does not end its unloading. -/
def Dev.rampedDown (r : GenRec) : GenRec :=
  let left := max 0 (r.load - (d.genCfg g).ramp)
  { r with load := left
           speed := if (d.genPower g).2.2 then clamp (-500) 500 (r.speed + d.loadTerm g left (d.genPower g).1) else r.speed }

/-- An UNLOAD_HELD set's record after a period. -/
def Dev.heldBack (r : GenRec) : GenRec :=
  r.addSpeed ((if (d.genPower g).2.2 then d.loadTerm g r.load (d.genPower g).1 else 0)
    - (if d.par.islanded then d.frequencyTerm else 0))

/-- A set's turn of a period (R173, R174). -/
def Dev.unloadTurn : Dev :=
  match (d.gen g).state with
  | .unloading => d.unloadSet g
  | .unloadHeld => d.holdSet g
  | _ => d

theorem unloadSets_eq : d.unloadSets = forEach (List.finRange 6) (fun k x => x.unloadTurn k) d := rfl

variable {d g} in
theorem unloadSet_ends (valid : (d.genPower g).2.2 = true) (low : 20 * (d.genPower g).1 ≤ (d.ratingInUse g : Nat)) :
    d.unloadSet g = d.toOpening g := if_pos ⟨valid, low⟩

variable {d g} in
theorem unloadSet_ramps (stays : ¬ ((d.genPower g).2.2 = true ∧ 20 * (d.genPower g).1 ≤ (d.ratingInUse g : Nat))) :
    (d.unloadSet g).gen g = d.rampedDown g (d.gen g) := by
  unfold Dev.unloadSet
  rw [if_neg stays]
  unfold Dev.rampedDown
  dsimp only
  split
  · rw [Dev.modGen_gen_same, Dev.modGen_gen_same]
    rfl
  · rw [Dev.modGen_gen_same]

theorem holdSet_own : (d.holdSet g).gen g = d.heldBack g (d.gen g) := Dev.modGen_gen_same d g _

/-! ## What a set's unloading leaves alone -/

theorem besideSet_toStopped : (d.toStopped g).besideSet g = d.besideSet g := by
  have moved : (d.stopMoved g).besideSet g = d.besideSet g := besideSet_moveGen d g _ _
  rcases toStopped_cases (d := d) (g := g) with same | ⟨b, released⟩
  · rw [same, moved]
  · rw [released, besideSet_releaseClaim, moved]

theorem besideSet_toStopping : (d.toStopping g).besideSet g = d.besideSet g := by
  have judged (x : Dev) : (x.judgeStopping g).besideSet g = x.besideSet g := by
    unfold Dev.judgeStopping
    split
    · exact besideSet_toStopped x g
    · exact besideSet_failGen .engine x g
    · rfl
  rw [Dev.toStopping, judged, besideSet_sendSetpoint, besideSet_moveGen]

theorem besideSet_toCooldown : (d.toCooldown g).besideSet g = d.besideSet g :=
  (ite_frame (Dev.besideSet · g) (besideSet_toStopping _ g)).trans (besideSet_moveGen d g _ _)

theorem besideSet_toOpening : (d.toOpening g).besideSet g = d.besideSet g := by
  have moved := besideSet_moveGen d g .opening id
  unfold Dev.toOpening
  dsimp only
  split
  · exact moved
  next b _ =>
    have asked := (besideSet_request (d.moveGen g .opening id) g
      { breaker := b, action := .openIt, requester := .block .par }).trans moved
    split
    · rw [besideSet_toCooldown, moved]
    · split
      next answered =>
        rw [answered] at asked
        exact (besideSet_modGen _ g _).trans asked
      next answered =>
        rw [answered] at asked
        exact (besideSet_failGen .openFailed _ g).trans asked

theorem besideSet_unloadTurn : (d.unloadTurn g).besideSet g = d.besideSet g := by
  unfold Dev.unloadTurn
  split
  · unfold Dev.unloadSet
    dsimp only
    split
    · exact besideSet_toOpening d g
    · exact (ite_frame (Dev.besideSet · g) (besideSet_modGen _ g _)).trans (besideSet_modGen d g _)
  · exact besideSet_modGen d g _
  · rfl

end

/-! ## A set at the end of the turns -/

section
variable {d e : Dev} {g : Fin 6}

/-- What a set's own turn starts from: the set as it was, and all that its turn reads. -/
structure Dev.turnStart (e d : Dev) (g : Fin 6) : Prop where
  record : e.gen g = d.gen g
  beside : e.besideSets = d.besideSets
  freq   : e.frequencyTerm = d.frequencyTerm

theorem Dev.turnStart.power (h : e.turnStart d g) : e.genPower g = d.genPower g :=
  show e.besideSets.genPower g = d.besideSets.genPower g by rw [h.beside]

theorem Dev.turnStart.rating (h : e.turnStart d g) : e.ratingInUse g = d.ratingInUse g :=
  show e.besideSets.ratingInUse g = d.besideSets.ratingInUse g by rw [h.beside]

theorem Dev.turnStart.rampedDown (h : e.turnStart d g) : e.rampedDown g = d.rampedDown g :=
  show e.besideSets.rampedDown g = d.besideSets.rampedDown g by rw [h.beside]

theorem Dev.turnStart.heldBack (h : e.turnStart d g) : e.heldBack g = d.heldBack g := by
  have term : e.loadTerm g = d.loadTerm g := show e.besideSets.loadTerm g = d.besideSets.loadTerm g by rw [h.beside]
  have islanded : e.par.islanded = d.par.islanded := (congrArg Par.islanded (periodic_of_besideSets h.beside) :)
  funext r
  rw [Dev.heldBack, Dev.heldBack, h.power, term, islanded, h.freq]

/-- A set's record after the turns of all is that after its own. -/
theorem unloadSets_gen {r : GenRec} (own : ∀ x : Dev, x.turnStart d g → (x.unloadTurn g).gen g = r) : d.unloadSets.gen g = r := by
  rw [unloadSets_eq]
  refine forEach_turn (P := fun x : Dev => x.turnStart d g) (Q := fun x : Dev => x.gen g = r) (fun k x other start => ?_) own
    (fun k x other done => ?_) (List.nodup_finRange 6) (List.mem_finRange g) ⟨rfl, rfl, rfl⟩
  · have beside := besideSet_unloadTurn x k
    exact ⟨(gen_of_besideSet beside (Ne.symm other)).trans start.record, (besideSets_of_besideSet beside).trans start.beside,
      (frequencyTerm_of_besideSet beside).trans start.freq⟩
  · exact (gen_of_besideSet (besideSet_unloadTurn x k) (Ne.symm other)).trans done

theorem unloadSets_ramps (unloading : (d.gen g).state = .unloading)
    (stays : ¬ ((d.genPower g).2.2 = true ∧ 20 * (d.genPower g).1 ≤ (d.ratingInUse g : Nat))) :
    d.unloadSets.gen g = d.rampedDown g (d.gen g) := by
  refine unloadSets_gen fun x start => ?_
  rw [Dev.unloadTurn, start.record, unloading]
  rw [← start.power, ← start.rating] at stays
  rw [← start.record, ← start.rampedDown]
  exact unloadSet_ramps stays

theorem unloadSets_holds (held : (d.gen g).state = .unloadHeld) : d.unloadSets.gen g = d.heldBack g (d.gen g) := by
  refine unloadSets_gen fun x start => ?_
  rw [Dev.unloadTurn, start.record, held]
  rw [← start.record, ← start.heldBack]
  exact holdSet_own x g

theorem unloadSets_other (unloading : (d.gen g).state ≠ .unloading) (held : (d.gen g).state ≠ .unloadHeld) :
    d.unloadSets.gen g = d.gen g := by
  refine unloadSets_gen fun x start => ?_
  rw [← start.record] at unloading held ⊢
  unfold Dev.unloadTurn
  split
  next h => exact absurd h unloading
  next h => exact absurd h held
  · rfl

/-! ## The end of unloading (R173, R175) -/

/-- A set whose breaker SWM opens is OPENING with that command (R175). -/
theorem toOpening_opens {b : Fin 24} (named : d.genBreaker g = some b) (takes : d.takesOpen b)
    (conducts : d.position b ≠ .openPos) : (d.toOpening g).gen g = { (d.gen g).moved .opening with cmdId := some (d.breaker b).nextId } ∧
      (d.toOpening g).breaker b = d.parCommanded b .openIt := by
  have beside : (d.moveGen g .opening id).besidePar = d.besidePar := moveGen_besidePar d g .opening id
  have own := moveGen_own d g .opening id
  have opening : d.toOpening g = ((d.moveGen g .opening id).parStarted b .openIt).modGen g
      (fun r => { r with cmdId := some ((d.moveGen g .opening id).breaker b).nextId }) := by
    have asked : (d.moveGen g .opening id).request { breaker := b, action := .openIt, requester := .block .par } = _ :=
      request_par_open (takesOpen_of_besidePar beside takes)
    unfold Dev.toOpening
    dsimp only
    rw [genBreaker_of_besidePar beside, named]
    dsimp only
    rw [position_of_besidePar beside, if_neg conducts, asked]
  rw [opening]
  generalize d.moveGen g .opening id = x at beside own
  rw [Dev.modGen_gen_same, gen_of_shell (parStarted_shell x b .openIt), own, breaker_of_besidePar beside]
  exact ⟨rfl, (parStarted_breaker x b .openIt).trans (parCommanded_of_besidePar beside b .openIt)⟩

end

section
variable {d : Dev} {g : Fin 6} {b : Fin 24}

/-- A set at 5 % of its rating or below is OPENING, and its breaker's OPEN is asked for. -/
theorem unloadSet_opens (named : d.genBreaker g = some b) (valid : (d.genPower g).2.2 = true)
    (low : 20 * (d.genPower g).1 ≤ (d.ratingInUse g : Nat)) (takes : d.takesOpen b) (conducts : d.position b ≠ .openPos) :
    (d.unloadSet g).gen g = { d.gen g with state := .opening, timer := none, cmdId := some (d.breaker b).nextId } ∧
      (∀ k, k ≠ g → (d.unloadSet g).gen k = d.gen k) ∧ (d.unloadSet g).breaker b = d.parCommanded b .openIt := by
  obtain ⟨own, opened⟩ := toOpening_opens named takes conducts
  rw [unloadSet_ends valid low]
  refine ⟨own.trans ?_, fun k other => gen_of_besideSet (besideSet_toOpening d g) other, opened⟩
  rw [GenRec.moved_outside _ rfl]

end

/-- Settles O60: each set's turn is a function of its own record and of what no turn changes; a failure is its steps. -/
theorem reactiveSharing : Obligations.ReactiveSharing := by
  refine ⟨fun d g => ?_, fun d g b named => ⟨fun valid low takes conducts => unloadSet_opens named valid low takes conducts,
    fun reason sound room => ?_⟩⟩
  · intro onBus valid shares r p gl sets rating ratings load target term bus held
    have shared := share_gen d g
    refine ⟨fun islanded ⟨on, ok⟩ => ?_, fun apart => ?_, fun freq omitted counted => ?_, fun parallel ⟨on, ok⟩ => ?_,
      fun apart => ?_, fun unloading stays => unloadSets_ramps unloading stays,
      fun unloading unheld => unloadSets_other unloading unheld⟩
    · rw [shared, if_pos on, if_pos islanded, Dev.islandedShare, if_pos ok]
      exact ⟨rfl, rfl, rfl⟩
    · rw [shared]
      split
      next on =>
        split
        next islanded =>
          have invalid : ¬ valid := fun ok =>
            apart.elim (fun parallel => by rw [parallel] at islanded; cases islanded) (· ⟨on, ok⟩)
          rw [Dev.islandedShare, if_neg invalid]
          exact ⟨rfl, rfl, rfl⟩
        · rw [Dev.paralleledShare]
          split <;> exact ⟨rfl, rfl, rfl⟩
      · exact ⟨rfl, rfl, rfl⟩
    · obtain rfl := frequencyTerm_unique omitted counted
      refine ⟨fun islanded ⟨on, ok⟩ => ?_, fun islanded on invalid => ?_, fun unheld => unloadSets_holds unheld⟩
      · rw [shared, if_pos on, if_pos islanded, Dev.islandedShare, if_pos ok]
        rfl
      · rw [shared, if_pos on, if_pos islanded, Dev.islandedShare, if_neg invalid]
        rfl
    · rw [shared, if_pos on, if_neg (by rw [parallel]; nofun), Dev.paralleledShare, if_pos ok]
      rfl
    · rw [shared]
      split
      next on =>
        obtain ⟨parallel, invalid⟩ := apart.resolve_left (not_not.mpr on)
        rw [if_neg (by rw [parallel]; nofun), Dev.paralleledShare, if_neg invalid]
      · rfl
  · obtain ⟨state, why, timer, speed, volt, load, reactive⟩ := failGen_record reason sound
    refine ⟨state, why, timer, speed, volt, load, reactive, fun k other => gen_of_besideSet (besideSet_failGen reason d g) other,
      failGen_listed reason sound room, mem_work_failGen reason sound (moveGen_meetDemand (.inr rfl)),
      fun on => mem_work_failGen reason sound (moveGen_onBusChanged on nofun),
      fun automatic busy => failGen_stop reason sound automatic busy,
      fun takes _ conducts => failGen_opens reason sound named takes conducts,
      fun claim idle open1 open2 => failGen_releases reason sound named claim idle ⟨open1, open2⟩⟩

end Sys2Proof.Machine

/-!
The timers of sets, the dead-bus grant and the synchroniser (R157, R161, R162, R164 to R166, R168, R175), with O29.
-/
namespace Sys2Proof.Machine

/-! ## Timers (R157, R168, R175) -/

section
variable {d : Dev} {g : Fin 6}

theorem expireStart_due (starting : (d.gen g).state = .starting) (due : reached? (d.gen g).timer d.now = true) :
    d.expireStart g = d.failGen g .start := if_pos (by rw [starting, due]; rfl)

theorem expireSync_due (inSync : (d.gen g).state.inSync = true) (due : reached? (d.gen g).timer d.now = true) :
    d.expireSync g = d.failGen g .sync := if_pos (by rw [inSync, due]; rfl)

theorem expireCooldown_due (cooldown : (d.gen g).state = .cooldown) (due : reached? (d.gen g).timer d.now = true) :
    d.expireCooldown g = d.toStopping g := if_pos (by rw [cooldown, due]; rfl)

/-- A set that fails at its timer's expiry, and what its failure leaves alone. -/
theorem failGen_expired (reason : GenReason) (sound : (d.gen g).state ≠ .failed) :
    ((d.failGen g reason).gen g).state = .failed ∧ ((d.failGen g reason).gen g).reason = reason ∧
      ((d.failGen g reason).gen g).timer = none ∧ ((d.failGen g reason).gen g).speed = 0 ∧
      ((d.failGen g reason).gen g).volt = 0 ∧ ((d.failGen g reason).gen g).load = 0 ∧
      ((d.failGen g reason).gen g).reactive = 0 ∧ (∀ k, k ≠ g → (d.failGen g reason).gen k = d.gen k) ∧
      (d.failGen g reason).meas = d.meas ∧ (d.failGen g reason).chg = d.chg := by
  obtain ⟨state, why, timer, speed, volt, load, reactive⟩ := failGen_record reason sound
  have beside := besideSet_failGen reason d g
  exact ⟨state, why, timer, speed, volt, load, reactive, fun k other => gen_of_besideSet beside other,
    meas_of_besideSets (besideSets_of_besideSet beside), chg_of_besideSets (besideSets_of_besideSet beside)⟩

theorem judgeStopping_running (running : (d.gen g).engine = .running) : d.judgeStopping g = d := by
  unfold Dev.judgeStopping
  rw [running]

/-- A set whose engine runs on enters STOPPING and stays there (R175). -/
theorem toStopping_running (running : (d.gen g).engine = .running) :
    (d.toStopping g).gen g = { d.gen g with state := .stopping, timer := none } := by
  have own : ((d.moveGen g .stopping id).sendSetpoint g false 0 0).gen g = { d.gen g with state := .stopping, timer := none } := by
    rw [gen_of_bare (bare_sendSetpoint _ _ _ _ _), moveGen_own, GenRec.moved_outside _ rfl]
    rfl
  rw [Dev.toStopping, judgeStopping_running (by rw [own]; exact running), own]

end

/-! ## The sets by rank (R160) -/

section
variable {d : Dev} {g : Fin 6}

theorem mem_gensByRank : g ∈ d.gensByRank ↔ (d.genCfg g).used = true ∧ 1 ≤ (d.genCfg g).rank ∧ (d.genCfg g).rank ≤ 6 := by
  simp only [Dev.gensByRank, idsWhere, List.mem_flatMap, List.mem_range, List.mem_filter, List.mem_finRange, true_and,
    Bool.and_eq_true, decide_eq_true_eq]
  constructor
  · rintro ⟨r, below, used, rank⟩
    exact ⟨used, by omega, by omega⟩
  · rintro ⟨used, low, high⟩
    exact ⟨(d.genCfg g).rank - 1, by omega, used, by omega⟩

theorem gensByRank_sorted (d : Dev) : d.gensByRank.Pairwise (fun x y => (d.genCfg x).rank ≤ (d.genCfg y).rank) := by
  have rank {r : Nat} {x : Fin 6} (member : x ∈ idsWhere 6 (fun g => (d.genCfg g).used && decide ((d.genCfg g).rank = r + 1))) :
      (d.genCfg x).rank = r + 1 := by
    simp only [idsWhere, List.mem_filter, Bool.and_eq_true, decide_eq_true_eq] at member
    exact member.2.2
  refine List.pairwise_flatMap.mpr ⟨fun r _ => ?_, List.pairwise_lt_range.imp fun {r t} below x hx y hy => ?_⟩
  · exact List.pairwise_iff_forall_sublist.mpr fun {x y} sub => by
      rw [rank (sub.subset List.mem_cons_self), rank (sub.subset (List.mem_cons_of_mem _ List.mem_cons_self))]
  · rw [rank hx, rank hy]
    omega

/-- The set of lowest rank that satisfies a test is the first to be found. -/
theorem gensByRank_find {p : Fin 6 → Bool} (ranked : g ∈ d.gensByRank) (passes : p g = true)
    (first : ∀ k ∈ d.gensByRank, k ≠ g → (d.genCfg k).rank ≤ (d.genCfg g).rank → p k = false) :
    d.gensByRank.find? p = some g := by
  obtain ⟨before, later, split, fresh⟩ := List.eq_append_cons_of_mem ranked
  refine List.find?_eq_some_iff_append.mpr ⟨passes, before, later, split, fun k member => ?_⟩
  have sorted := gensByRank_sorted d
  rw [split, List.pairwise_append] at sorted
  have ahead := sorted.2.2 k member g List.mem_cons_self
  have listed : k ∈ d.gensByRank := by rw [split]; exact List.mem_append_left _ member
  rw [first k listed (fun same => fresh (same ▸ member)) ahead]
  rfl

end

/-! ## A CLOSE that SWM has accepted (R162, R166) -/

/-- SWM has accepted a CLOSE of PAR's for a breaker, the device having been `d`; what PAR keeps beside its sets may differ. -/
structure Dev.closeAccepted (x : Dev) (b : Fin 24) (d : Dev) : Prop where
  gens   : x.par.gens = d.par.gens
  own    : x.breaker b = (d.parStarted b .closeIt).breaker b
  others : ∀ k, k ≠ b → x.breaker k = d.breaker k
  beside : x.shell.besidePar = d.shell.besidePar

section
variable {d : Dev} {g : Fin 6} {b : Fin 24}

/-- The device with other values of the synchroniser. -/
def Dev.withSync (d : Dev) (y : Sync) : Dev := { d with par := { d.par with sync := y } }

/-- What PAR keeps beside its sets does not matter to the acceptance. -/
theorem parStarted_closeAccepted {p : Par} (gens : p.gens = d.par.gens) :
    (({ d with par := p } : Dev).parStarted b .closeIt).closeAccepted b d := by
  have shell := parStarted_shell { d with par := p } b .closeIt
  refine ⟨by rw [parStarted_par]; exact gens, ?_, fun k other => parStarted_other { d with par := p } b .closeIt other,
    (congrArg Dev.besidePar shell).trans rfl⟩
  rw [parStarted_breaker, parStarted_breaker]
  rfl

theorem Dev.closeAccepted.withSync {x : Dev} (h : x.closeAccepted b d) (y : Sync) : (x.withSync y).closeAccepted b d :=
  ⟨h.gens, h.own, h.others, h.beside⟩

/-- What the capture of a trigger is made from. -/
theorem captured_of_besidePar {x y : Dev} (h : x.besidePar = y.besidePar) (k : TriggerKind) (n : Nat) :
    (x.trigger k n).cap = (y.trigger k n).cap := show (x.besidePar.trigger k n).cap = (y.besidePar.trigger k n).cap by rw [h]

theorem Dev.takesClose.withPar (takes : d.takesClose b) (p : Par) : ({ d with par := p } : Dev).takesClose b :=
  ⟨⟨takes.used, takes.gen, takes.mode, takes.claim, takes.record⟩, takes.free, takes.remote, takes.spring, takes.isOpen,
    takes.permitted, takes.unblocked⟩

/-- The set whose CLOSE has been accepted is CLOSING, and CAP is triggered for it. -/
theorem Dev.closeAccepted.closedBy {x : Dev} (h : x.closeAccepted b d) :
    (x.genClosing g (d.breaker b).nextId).closedBy g b d := by
  have beside := moveGen_besidePar x g .closing (fun r => { r with cmdId := some (d.breaker b).nextId })
  have own := moveGen_own x g .closing (fun r => { r with cmdId := some (d.breaker b).nextId })
  have sets {k : Fin 6} := moveGen_other x g .closing (fun r => { r with cmdId := some (d.breaker b).nextId }) (k := k)
  have gens (k : Fin 6) : x.gen k = d.gen k := by rw [Dev.gen, h.gens]; rfl
  have capture : (x.trigger .gen g.val).cap = (d.trigger .gen g.val).cap := captured_of_besidePar h.beside .gen g.val
  unfold Dev.genClosing
  generalize x.moveGen g .closing _ = y at beside own sets
  have breakers (k : Fin 24) : (y.trigger .gen g.val).breaker k = x.breaker k :=
    (breaker_of_besidePar beside : y.breaker k = x.breaker k)
  refine ⟨?_, fun k other => (sets other).trans (gens k), ?_, fun k other => (breakers k).trans (h.others k other),
    (captured_of_besidePar beside .gen g.val).trans capture⟩
  · refine Eq.trans own ?_
    rw [GenRec.moved_outside _ rfl, gens]
  · rw [breakers, h.own, parStarted_breaker]
    rfl

theorem genClosing_par (d : Dev) (g : Fin 6) (id : Count16) : (d.genClosing g id).par.grant = d.par.grant ∧
    (d.genClosing g id).par.sync = d.par.sync := moveGen_closing_par d g (fun r => { r with cmdId := some id })

/-! ## The dead-bus grant (R161, R162) -/

/-- The device with the grant given to a set. -/
def Dev.granted (d : Dev) (g : Fin 6) : Dev := { d with par := { d.par with grant := some g } }

/-- A grant is judged only while it is free and the generator bus is DEAD and carries no transfer block. -/
def Dev.grantOpen (d : Dev) : Prop :=
  d.par.grant = none ∧ d.genBusState = .dead ∧ ∀ y, d.genBus = some y → (d.busCfg y).block = 0

theorem grantOpen_iff (d : Dev) :
    (decide (d.par.grant = none) && decide (d.genBusState = .dead) && !d.genBus.any d.blocked) = true ↔
    d.grantOpen := by
  unfold Dev.grantOpen Dev.blocked
  cases d.genBus <;> simp [and_assoc]

theorem judgeGrant_closed (closed : ¬ d.grantOpen) : d.judgeGrant = d := if_neg (mt (grantOpen_iff d).mp closed)

theorem judgeGrant_none (none : ∀ g, (d.genCfg g).used = true → (d.gen g).state ≠ .deadBusWait) : d.judgeGrant = d := by
  have found : d.gensByRank.find? (fun g => decide ((d.gen g).state = .deadBusWait)) = .none :=
    List.find?_eq_none.mpr fun g member => by simpa using none g (mem_gensByRank.mp member).1
  unfold Dev.judgeGrant
  rw [found]
  split <;> rfl

theorem judgeGrant_gives (isOpen : d.grantOpen)
    (found : d.gensByRank.find? (fun g => decide ((d.gen g).state = .deadBusWait)) = some g) : d.judgeGrant = d.giveGrant g := by
  unfold Dev.judgeGrant
  rw [if_pos ((grantOpen_iff d).mpr isOpen), found]

theorem giveGrant_closes (named : d.genBreaker g = some b) (takes : d.takesClose b)
    (known1 : (d.sides b).1 ≠ .indeterminate) (known2 : (d.sides b).2 ≠ .indeterminate)
    (apart : ¬ ((d.sides b).1 = .live ∧ (d.sides b).2 = .live)) :
    d.giveGrant g = ((d.granted g).parStarted b .closeIt).genClosing g (d.breaker b).nextId := by
  have asked : (d.granted g).request { breaker := b, action := .closeIt, requester := .block .par } = _ :=
    request_par_close none (takes.withPar _) known1 known2 (.inl apart)
  unfold Dev.giveGrant
  rw [named]
  dsimp only
  rw [show ({ d with par := { d.par with grant := some g } } : Dev) = d.granted g from rfl, asked]
  rfl

/-- The waiting set of lowest rank has the grant, and is CLOSING under it. -/
theorem judgeGrant_closes (isOpen : d.grantOpen) (ranked : g ∈ d.gensByRank) (waits : (d.gen g).state = .deadBusWait)
    (first : ∀ k, k ≠ g → (d.genCfg k).used = true → (d.gen k).state = .deadBusWait → (d.genCfg g).rank < (d.genCfg k).rank)
    (named : d.genBreaker g = some b) (takes : d.takesClose b) (known1 : (d.sides b).1 ≠ .indeterminate)
    (known2 : (d.sides b).2 ≠ .indeterminate) (apart : ¬ ((d.sides b).1 = .live ∧ (d.sides b).2 = .live)) :
    d.judgeGrant.par.grant = some g ∧ d.judgeGrant.closedBy g b d := by
  have found : d.gensByRank.find? (fun g => decide ((d.gen g).state = .deadBusWait)) = some g :=
    gensByRank_find ranked (decide_eq_true waits) fun k listed other rank =>
      decide_eq_false fun waiting => absurd (first k other (mem_gensByRank.mp listed).1 waiting) (Nat.not_lt.mpr rank)
  have accepted : ((d.granted g).parStarted b .closeIt).closeAccepted b d :=
    parStarted_closeAccepted (p := { d.par with grant := some g }) rfl
  rw [judgeGrant_gives isOpen found, giveGrant_closes named takes known1 known2 apart]
  refine ⟨?_, accepted.closedBy⟩
  rw [(genClosing_par _ g _).1, parStarted_par]
  rfl

end

/-! ## The tests of the synchroniser (R165) -/

section
variable (d : Dev) (r : SyncReq)

/-- The slip of a request. -/
def Dev.slipOf : Int := (d.deviation (d.reqInGroup r)).1 - (d.deviation (d.reqRefGroup r)).1

/-- The voltage difference of a request. -/
def Dev.dvOf : Int := ((d.phaseAVoltage (d.reqRefGroup r)).2.1 : Int) - (d.phaseAVoltage (d.reqInGroup r)).2.1

/-- The vector window test of a request. -/
def Dev.vectorOf : VectorResult :=
  vectorWindow (d.phaseAVoltage (d.reqRefGroup r)).1 (d.phaseAVoltage (d.reqInGroup r)).1 (d.phaseAVoltage (d.reqRefGroup r)).2.2
    (d.phaseAVoltage (d.reqInGroup r)).2.2 d.tab.par.angle

/-- All tests of a request hold at an instant. -/
def Dev.synchronous : Prop :=
  (d.deviation (d.reqRefGroup r)).2 = true ∧ (d.deviation (d.reqInGroup r)).2 = true ∧ 0 ≤ d.slipOf r ∧
    d.slipOf r ≤ d.tab.par.slipWindow ∧ d.vectorOf r = .inside ∧ (d.phaseAVoltage (d.reqRefGroup r)).2.2.valid = true ∧
    (d.phaseAVoltage (d.reqInGroup r)).2.2.valid = true ∧ -(d.tab.par.voltWindow : Int) ≤ d.dvOf r ∧
    d.dvOf r ≤ d.tab.par.voltWindow

/-- The synchroniser with the values of an instant's tests, a count of instants met and the last of them. -/
def Dev.syncTested (met : Nat) (lastMet : Count32) : Sync :=
  { d.par.sync with
    met := met, slip := d.slipOf r
    slipOk := (d.deviation (d.reqRefGroup r)).2 && (d.deviation (d.reqInGroup r)).2
    dv := d.dvOf r
    voltOk := (d.phaseAVoltage (d.reqRefGroup r)).2.2.valid && (d.phaseAVoltage (d.reqInGroup r)).2.2.valid
    vector := d.vectorOf r, lastMet := lastMet }

/-- The tests of a request as the model makes them. -/
def Dev.testsMet : Bool :=
  (d.deviation (d.reqRefGroup r)).2 && (d.deviation (d.reqInGroup r)).2
    && decide (0 ≤ d.slipOf r ∧ d.slipOf r ≤ d.tab.par.slipWindow) && decide (d.vectorOf r = .inside)
    && ((d.phaseAVoltage (d.reqRefGroup r)).2.2.valid && (d.phaseAVoltage (d.reqInGroup r)).2.2.valid)
    && decide ((d.dvOf r).natAbs ≤ d.tab.par.voltWindow)

theorem testsMet_iff : d.testsMet r = true ↔ d.synchronous r := by
  have window : (d.dvOf r).natAbs ≤ d.tab.par.voltWindow ↔ -(d.tab.par.voltWindow : Int) ≤ d.dvOf r ∧
      d.dvOf r ≤ d.tab.par.voltWindow := by omega
  simp only [Dev.testsMet, Bool.and_eq_true, decide_eq_true_eq, window, Dev.synchronous, and_assoc]

theorem syncValues_eq : d.syncValues r = d.syncTested r (if d.testsMet r then d.par.sync.met + 1 else 0)
    (if d.testsMet r then d.sau.inst else d.par.sync.lastMet) := rfl

variable {d r}

theorem syncValues_met (holds : d.synchronous r) : d.syncValues r = d.syncTested r (d.par.sync.met + 1) d.sau.inst := by
  rw [syncValues_eq, if_pos ((testsMet_iff d r).mpr holds), if_pos ((testsMet_iff d r).mpr holds)]

theorem syncValues_missed (fails : ¬ d.synchronous r) : d.syncValues r = d.syncTested r 0 d.par.sync.lastMet := by
  rw [syncValues_eq, if_neg (mt (testsMet_iff d r).mp fails), if_neg (mt (testsMet_iff d r).mp fails)]

/-! ## An instant of the served request (R165, R166) -/

/-- A result goes to SWM for a set and to CHG for the bus request (R166). -/
def Dev.giveResult (d : Dev) (r : SyncReq) (first : Count32) : Dev :=
  match r with
  | .gen g => d.genResult g first
  | .bus q => d.push (.syncResult q.breaker first d.sau.inst)

theorem syncInstant_eq (served : d.par.sync.served = some r) : d.syncInstant =
    if 2 ≤ (d.syncValues r).met ∧ (d.syncValues r).accepted = false then
      (d.withSync (d.syncValues r)).giveResult r d.par.sync.lastMet
    else d.withSync (d.syncValues r) := by
  unfold Dev.syncInstant
  rw [served]
  rfl

theorem syncInstant_missed (served : d.par.sync.served = some r) (fails : ¬ d.synchronous r) :
    d.syncInstant = d.withSync (d.syncTested r 0 d.par.sync.lastMet) := by
  rw [syncInstant_eq served, syncValues_missed fails]
  exact if_neg fun due => absurd due.1 (Nat.not_succ_le_zero 1)

/-- The first instant of a row gives no result, and none is given once a CLOSE has been accepted. -/
theorem syncInstant_counts (served : d.par.sync.served = some r) (holds : d.synchronous r)
    (waits : d.par.sync.met = 0 ∨ d.par.sync.accepted = true) :
    d.syncInstant = d.withSync (d.syncTested r (d.par.sync.met + 1) d.sau.inst) := by
  rw [syncInstant_eq served, syncValues_met holds]
  refine if_neg fun ⟨second, pending⟩ => ?_
  have second : 2 ≤ d.par.sync.met + 1 := second
  have pending : d.par.sync.accepted = false := pending
  rcases waits with first | accepted
  · omega
  · rw [accepted] at pending
    cases pending

theorem syncInstant_gives (served : d.par.sync.served = some r) (holds : d.synchronous r) (second : 1 ≤ d.par.sync.met)
    (pending : d.par.sync.accepted = false) :
    d.syncInstant = (d.withSync (d.syncTested r (d.par.sync.met + 1) d.sau.inst)).giveResult r d.par.sync.lastMet := by
  rw [syncInstant_eq served, syncValues_met holds]
  exact if_pos ⟨Nat.succ_le_succ second, pending⟩

end

section
variable {d : Dev} {g : Fin 6} {b : Fin 24}

/-- The result of an instant lets SWM accept the CLOSE of a set that carries it (R106, R166). -/
theorem genResult_closes (named : d.genBreaker g = some b) (takes : d.takesClose b) (known1 : (d.sides b).1 ≠ .indeterminate)
    (known2 : (d.sides b).2 ≠ .indeterminate) (first : Count32) : d.genResult g first =
      ((d.parStarted b .closeIt).withSync { d.par.sync with accepted := true }).genClosing g (d.breaker b).nextId := by
  have valid : d.syncValid b (some { breaker := b, first := first, second := d.sau.inst }) = true := by simp [Dev.syncValid]
  have asked : d.request { breaker := b, action := .closeIt, requester := .block .par
                           sync := some { breaker := b, first := first, second := d.sau.inst } } = _ :=
    request_par_close _ takes known1 known2 (.inr valid)
  have kept : (d.parStarted b .closeIt).par.sync = d.par.sync := by rw [parStarted_par]
  unfold Dev.genResult
  rw [named]
  dsimp only
  rw [asked, ← kept]
  rfl

/-- From the second instant in a row on a set's result closes its breaker, if SWM accepts. -/
theorem syncInstant_closes (served : d.par.sync.served = some (.gen g)) (holds : d.synchronous (.gen g))
    (second : 1 ≤ d.par.sync.met) (pending : d.par.sync.accepted = false) (named : d.genBreaker g = some b)
    (takes : d.takesClose b) (known1 : (d.sides b).1 ≠ .indeterminate) (known2 : (d.sides b).2 ≠ .indeterminate) :
    d.syncInstant.par.sync = { d.syncTested (.gen g) (d.par.sync.met + 1) d.sau.inst with accepted := true } ∧
      d.syncInstant.closedBy g b d := by
  set e := d.withSync (d.syncTested (.gen g) (d.par.sync.met + 1) d.sau.inst)
  have gives : d.syncInstant = e.genResult g d.par.sync.lastMet := syncInstant_gives served holds second pending
  have accepted : (e.parStarted b .closeIt).closeAccepted b d := parStarted_closeAccepted (p := e.par) rfl
  rw [gives, genResult_closes (d := e) named (takes.withPar e.par) known1 known2]
  exact ⟨(genClosing_par _ g _).2, (accepted.withSync _).closedBy⟩

/-! ## A free synchroniser (R164) -/

theorem examineSync_serving {r : SyncReq} (served : d.par.sync.served = some r) : d.examineSync = d :=
  if_neg (by rw [served]; nofun)

theorem examineSync_serves {r : SyncReq} (free : d.par.sync.served = none) (found : d.syncQueue.find? d.servable = some r) :
    d.examineSync = d.serve r := by
  unfold Dev.examineSync
  rw [if_pos free, found]

/-- The bus request comes first. -/
theorem syncQueue_bus {q : BusRequest} (waits : d.par.busWaiting = some q) (clear : d.sideBlocked q.breaker = false) :
    d.syncQueue.find? d.servable = some (.bus q) := by
  have servable : d.servable (.bus q) = true := by simp [Dev.servable, Dev.reqBreaker, clear]
  have queue : d.syncQueue = .bus q :: d.waitingGens.map .gen := by rw [Dev.syncQueue, waits]; rfl
  rw [queue, List.find?_cons_of_pos servable]

theorem servable_gen {c : Fin 24} (named : d.genBreaker g = some c) : d.servable (.gen g) = !d.sideBlocked c := by
  simp [Dev.servable, Dev.reqBreaker, named]

/-- The waiting set of lowest rank comes next, past the requests whose side buses are blocked. -/
theorem syncQueue_gen (blocked : ∀ q, d.par.busWaiting = some q → d.sideBlocked q.breaker = true) (ranked : g ∈ d.gensByRank)
    (waits : (d.gen g).state = .syncWait) (named : d.genBreaker g = some b) (clear : d.sideBlocked b = false)
    (first : ∀ k, k ≠ g → (d.genCfg k).used = true → (d.gen k).state = .syncWait → (d.genCfg k).rank ≤ (d.genCfg g).rank →
      ∃ c, d.genBreaker k = some c ∧ d.sideBlocked c = true) : d.syncQueue.find? d.servable = some (.gen g) := by
  have bus : (d.par.busWaiting.toList.map SyncReq.bus).find? d.servable = none := by
    refine List.find?_eq_none.mpr fun r member => ?_
    obtain ⟨q, waiting, rfl⟩ := List.mem_map.mp member
    simp [Dev.servable, Dev.reqBreaker, blocked q (Option.mem_toList.mp waiting)]
  rw [Dev.syncQueue, List.find?_append, bus, Option.none_or, List.find?_map, Dev.waitingGens, List.find?_filter]
  refine congrArg (Option.map SyncReq.gen) (gensByRank_find ranked ?_ fun k listed other rank => ?_)
  · simp [waits, servable_gen named, clear]
  · by_cases waiting : (d.gen k).state = .syncWait
    · obtain ⟨c, named', blocked'⟩ := first k other (mem_gensByRank.mp listed).1 waiting rank
      simp [servable_gen named', blocked']
    · simp [waiting]

/-- A set that enters service is SYNCING, and its sync timer runs on (R158, R164). -/
theorem serve_gen (waits : (d.gen g).state = .syncWait) : (d.serve (.gen g)).par.sync.served = some (.gen g) ∧
    (d.serve (.gen g)).par.sync.met = 0 ∧ (d.serve (.gen g)).gen g = { d.gen g with state := .syncing } ∧
      ∀ k, k ≠ g → (d.serve (.gen g)).gen k = d.gen k := by
  set x : Dev := d.withSync { d.par.sync with
    served := some (.gen g), accepted := false, met := 0, slipOk := false, voltOk := false }
  have serves : d.serve (.gen g) = x.moveGen g .syncing id := rfl
  have sync := moveGen_sync x g .syncing id rfl
  rw [serves, sync]
  refine ⟨rfl, rfl, ?_, fun k other => moveGen_other x g .syncing id other⟩
  rw [moveGen_own, show x.gen g = d.gen g from rfl, GenRec.moved, waits]
  rfl

end

/-- Settles O29: each expiry is one move or failure, and the grant and the synchroniser come to the first set or request found and
to SWM's acceptance of its CLOSE. -/
theorem generatorTimersExpire : Obligations.GeneratorTimersExpire := by
  refine ⟨fun s g run due => ⟨fun starting => ?_, fun inSync => ?_, fun cooldown running => ?_⟩,
    fun d => ⟨fun closed => ?_, fun g b free dead clear used waits low high first named takes known1 known2 apart => ?_⟩,
    fun d r served => ?_, fun d free => ⟨fun q waits clear => ?_, fun g b blocked used low high waits named clear first => ?_⟩⟩
  · refine ⟨s.dev.failGen g .start, ?_, failGen_expired .start (by rw [starting]; nofun)⟩
    rw [← expireStart_due starting due]
    exact State.whenRunning_eq run (fun d => (d.expireStart g).flush)
  · refine ⟨s.dev.failGen g .sync, ?_, failGen_expired .sync fun failed => by rw [failed] at inSync; cases inSync⟩
    rw [← expireSync_due inSync due]
    exact State.whenRunning_eq run (fun d => (d.expireSync g).flush)
  · have beside := besideSet_toStopping s.dev g
    refine ⟨s.dev.toStopping g, ?_, ?_, ?_, fun k other => gen_of_besideSet beside other,
      meas_of_besideSets (besideSets_of_besideSet beside), chg_of_besideSets (besideSets_of_besideSet beside)⟩
    · rw [← expireCooldown_due cooldown due]
      exact State.whenRunning_eq run (fun d => (d.expireCooldown g).flush)
    · rw [toStopping_running running]
    · rw [toStopping_running running]
  · rcases closed with held | alive | ⟨y, named, blocked⟩ | none
    · exact judgeGrant_closed fun isOpen => by rw [isOpen.1] at held; cases held
    · exact judgeGrant_closed fun isOpen => alive isOpen.2.1
    · exact judgeGrant_closed fun isOpen => blocked (isOpen.2.2 y named)
    · exact judgeGrant_none none
  · exact judgeGrant_closes ⟨free, dead, clear⟩ (mem_gensByRank.mpr ⟨used, low, high⟩) waits first named takes known1 known2 apart
  · intro y ref inc fRef fIn slip dv vector holds next
    refine ⟨examineSync_serving served, syncInstant_missed served, syncInstant_counts served, ?_, ?_⟩
    · rintro q rfl holds second pending
      exact syncInstant_gives served holds second pending
    · rintro g b rfl holds second pending named takes known1 known2
      exact syncInstant_closes served holds second pending named takes known1 known2
  · rw [examineSync_serves free (syncQueue_bus waits clear)]
    exact ⟨rfl, rfl, rfl, rfl⟩
  · rw [examineSync_serves free (syncQueue_gen blocked (mem_gensByRank.mpr ⟨used, low, high⟩) waits named clear first)]
    exact serve_gen waits

end Sys2Proof.Machine

/-!
What a command or a tick can do to the part, and that whichever it does keeps the device sound, and nothing volatile where the
ports are joined (O5).
-/
namespace Sys2Proof.Machine

/-! ## What a command can do -/

/-- One device comes of another by the updates that a running device makes: it has what they all keep. -/
def Dev.worksTo (d e : Dev) : Prop := ∀ P : Dev → Prop, Whole P → P d → P e

/-- What a command or a tick makes of the part: it works on, nothing happens, a reset or a loss of supply takes what is volatile,
a frame crosses the bypass, or a reset completes (R21). -/
inductive State.Effect (s t : State) : Prop
  | works (before : s.power = .running) (after : t.power = .running) (dev : s.dev.worksTo t.dev)
  | idles (power : t.power = s.power) (dev : t.dev = s.dev)
  | loses (joined : t.power ≠ .running) (dev : t.dev = s.dev.blank)
  | crosses (p : Port) (f : EthFrame) (joined : s.power ≠ .running)
      (dev : t.dev = s.dev.modPort p (fun r => { r with lastOut := some f }))
  | boots (nomf mgw up1 up2 : Bool) (after : t.power = .running) (dev : t.dev = s.dev.boot s.nv nomf mgw up1 up2)

/-- A command answers a next state, to which the part comes by one of these effects. -/
def State.answers (s : State) (r : Result) : Prop := ∃ t, r = .next t ∧ s.Effect t

section
variable {s : State}

theorem answers_itself : s.answers (.next s) := ⟨s, rfl, .idles rfl rfl⟩

theorem answers_whenRunning {f : Dev → Dev} (keeps : ∀ {P : Dev → Prop}, Whole P → ∀ {d}, P d → P (f d)) :
    s.answers (s.whenRunning f) := by
  unfold State.whenRunning
  split
  next run => exact ⟨_, rfl, .works run run fun _ S h => keeps S h⟩
  next => exact answers_itself

theorem answers_serveRow {row : Nat × Nat} {act : Dev → Request → Response × Dev}
    (keeps : ∀ {P : Dev → Prop}, Whole P → ∀ d q, P d → P (act d q).2) :
    s.answers (s.whenRunning (fun d => d.serveRow row act)) := answers_whenRunning fun S _ h => S.serveRow _ _ (keeps S) h

theorem answers_serveOperate {target : Nat} {act : Dev → Nat → Response × Dev}
    (keeps : ∀ {P : Dev → Prop}, Whole P → ∀ d x, P d → P (act d x).2) :
    s.answers (s.whenRunning (fun d => d.serveOperate target act)) := answers_whenRunning fun S _ h => S.serveOperate _ _ (keeps S) h

theorem effect_completeWrite (run : s.power = .running) (a : Nat) (ok : Bool) : s.Effect (s.completeWrite a ok) := by
  unfold State.completeWrite
  split
  next q x first recs storing =>
    split
    · split
      · exact .works run run fun _ S h => S.writeTaken _ _ _ _ h
      · exact .works run run fun _ S h => S.writeFailed _ _ h
    · exact .idles rfl rfl
  next => exact .idles rfl rfl

theorem answers_completeWrite (a : Nat) (ok : Bool) :
    s.answers (if s.power = .running then .next (s.completeWrite a ok) else .next s) := by
  split
  next run => exact ⟨_, rfl, effect_completeWrite run a ok⟩
  next => exact answers_itself

theorem effect_completeJob (run : s.power = .running) (ok : Bool) : s.Effect (s.completeJob ok) := by
  unfold State.completeJob
  split
  next => exact .idles rfl rfl
  next j js oldest =>
    dsimp only
    split
    · exact .works run run fun _ S h => S.jobs js h
    · exact .works run run fun _ S h => S.flush (S.recordError _ _ (S.jobs js h))

theorem answers_stateStoreComplete (ok : Bool) : s.answers (execStateStoreComplete ok s) := by
  unfold execStateStoreComplete
  split
  next run => exact ⟨_, rfl, effect_completeJob run ok⟩
  next => exact answers_itself

theorem effect_cross (joined : s.power ≠ .running) (p : Port) (f : EthFrame) : s.Effect (s.cross p f) :=
  .crosses p.other f joined rfl

theorem answers_frameReception (p : Port) (f : EthFrame) (maintIn : Bool) : s.answers (execFrameReception p f maintIn s) := by
  unfold execFrameReception
  split
  next run => exact ⟨_, rfl, .works run run fun _ S h => S.receive p f (S.prot _ h)⟩
  next joined => exact ⟨_, rfl, effect_cross joined p f⟩

theorem answers_bypassFrame (p : Port) (f : EthFrame) : s.answers (execBypassFrame p f s) := by
  unfold execBypassFrame
  split
  next => exact answers_itself
  next joined => exact ⟨_, rfl, effect_cross joined p f⟩

theorem effect_lose {p : Power} (joined : p ≠ .running) : s.Effect (s.lose p) := .loses joined rfl

theorem effect_resetNLow : s.Effect s.resetNLow := by
  unfold State.resetNLow
  dsimp only
  split
  next => exact .idles rfl rfl
  next => exact .loses nofun rfl

theorem effect_restart : s.Effect s.restart := by
  unfold State.restart
  split
  next => exact effect_lose nofun
  next => exact .idles rfl rfl

theorem effect_complete (nomf mgw up1 up2 : Bool) : s.Effect (s.complete nomf mgw up1 up2) := by
  unfold State.complete
  split
  next => exact .boots nomf mgw up1 up2 rfl rfl
  next => exact .idles rfl rfl

theorem effect_tick : s.Effect s.tick := by
  unfold State.tick
  split
  next run => exact .works run run fun _ S h => keeps_ite (S.now _ h) h
  next => exact .idles rfl rfl

end

/-- Every command has one of the effects. -/
theorem exec_answers (c : Instr) (s : State) : s.answers (exec c s) :=
  match c with
  | .frameReception p f maintIn => answers_frameReception p f maintIn
  | .linkDown p => answers_whenRunning fun S _ h => S.linkDown p h
  | .linkUp p => answers_whenRunning fun S _ h => S.linkUp p h
  | .transmissionEnd p => answers_whenRunning fun S _ h => S.transmissionEnd p h
  | .powerUp => ⟨_, rfl, effect_lose nofun⟩
  | .resetNLow => ⟨_, rfl, effect_resetNLow⟩
  | .resetComplete nomf mgw up1 up2 => ⟨_, rfl, effect_complete nomf mgw up1 up2⟩
  | .bypassFrame p f => answers_bypassFrame p f
  | .auxSupplyLoss => ⟨_, rfl, effect_lose nofun⟩
  | .restartReset => ⟨_, rfl, effect_restart⟩
  | .silenceTimeout => answers_whenRunning fun S _ h => S.expireSilence h
  | .statusAgeExpiry b => answers_whenRunning fun S _ h => S.flush (S.expireStatusAge b h)
  | .commandRepeat b => answers_whenRunning fun S _ h => S.commandRepeat b h
  | .operateTimerExpiry b => answers_whenRunning fun S _ h => S.flush (S.expireOperate b h)
  | .breakerFailureTimerExpiry b => answers_whenRunning fun S _ h => S.flush (S.expireBreakerFailure b h)
  | .stateStoreComplete ok => answers_stateStoreComplete ok
  | .sourceTimerExpiry u => answers_whenRunning fun S _ h => S.flush (S.expireSourceTimer u h)
  | .stepWaitExpiry => answers_whenRunning fun S _ h => S.flush (S.expireStepWait h)
  | .stepSyncTimeout => answers_whenRunning fun S _ h => S.flush (S.expireStepSync h)
  | .awaitDeadline => answers_whenRunning fun S _ h => S.flush (S.expireAwait h)
  | .delayDeadline => answers_whenRunning fun S _ h => S.flush (S.expireDelay h)
  | .overlapTimerExpiry => answers_whenRunning fun S _ h => S.flush (S.expireOverlap h)
  | .settlingEnd => answers_whenRunning fun S _ h => S.flush (S.endSettling h)
  | .controllerAgeExpiry g => answers_whenRunning fun S _ h => S.flush (S.expireControllerAge g h)
  | .startTimerExpiry g => answers_whenRunning fun S _ h => S.flush (S.expireStart g h)
  | .syncTimerExpiry g => answers_whenRunning fun S _ h => S.flush (S.expireSync g h)
  | .cooldownTimerExpiry g => answers_whenRunning fun S _ h => S.flush (S.expireCooldown g h)
  | .setpointPeriod => answers_whenRunning fun S _ h => S.flush (S.setpointPeriod h)
  | .selectionTimeout => answers_whenRunning fun S _ h => S.expireSelection h
  | .ident => answers_serveRow fun _ _ _ h => h
  | .echo => answers_serveRow fun _ _ _ h => h
  | .read => answers_serveRow fun _ _ q h => Whole.actRead q h
  | .write => answers_whenRunning fun S _ h => S.serveWrite h
  | .deviceWriteComplete ok => answers_completeWrite 2 ok
  | .streamsWriteComplete ok => answers_completeWrite 3 ok
  | .quantitiesWriteComplete ok => answers_completeWrite 4 ok
  | .groupsWriteComplete ok => answers_completeWrite 5 ok
  | .elementsWriteComplete ok => answers_completeWrite 6 ok
  | .curvesWriteComplete ok => answers_completeWrite 7 ok
  | .zonesWriteComplete ok => answers_completeWrite 8 ok
  | .breakersWriteComplete ok => answers_completeWrite 9 ok
  | .busesWriteComplete ok => answers_completeWrite 10 ok
  | .sourcesWriteComplete ok => answers_completeWrite 11 ok
  | .causesWriteComplete ok => answers_completeWrite 12 ok
  | .schemesWriteComplete ok => answers_completeWrite 13 ok
  | .generatorsWriteComplete ok => answers_completeWrite 14 ok
  | .captureConfigWriteComplete ok => answers_completeWrite 15 ok
  | .settingsLockWriteComplete ok => answers_completeWrite 20 ok
  | .watchSet => answers_serveRow fun S _ q h => S.actWatchSet q h
  | .watchRead => answers_serveRow fun _ _ _ h => h
  | .force => answers_serveRow fun S _ q h => S.actForce q h
  | .forceClearAll => answers_serveRow fun S _ q h => S.actForceClear q h
  | .select => answers_serveRow fun S _ q h => S.actSelect q h
  | .cancel => answers_serveRow fun _ _ _ h => h
  | .mode => answers_serveOperate fun S _ x h => S.opMode x h
  | .maintOn => answers_serveOperate fun S _ x h => S.opMaint x true h
  | .maintOff => answers_serveOperate fun S _ x h => S.opMaint x false h
  | .restart => answers_serveOperate fun _ _ x h => Whole.opRestart x h
  | .breakerOpen => answers_serveOperate fun S _ x h => S.opBreaker x .openIt h
  | .breakerClose => answers_serveOperate fun S _ x h => S.opBreaker x .closeIt h
  | .lockoutReset => answers_serveOperate fun S _ x h => S.opLockoutReset x h
  | .blockReset => answers_serveOperate fun S _ x h => S.opBlockReset x h
  | .runScheme => answers_serveOperate fun S _ x h => S.opRun x h
  | .chgReset => answers_serveOperate fun S _ x h => Whole.opChg x _ (fun _ => S.opChgReset) h
  | .chgInhibit => answers_serveOperate fun S _ x h => Whole.opChg x _ (fun _ => S.opInhibit) h
  | .chgRelease => answers_serveOperate fun S _ x h => Whole.opChg x _ (fun _ => S.opRelease) h
  | .genReset => answers_serveOperate fun S _ x h => S.opGenReset x h
  | .errors => answers_serveRow fun S _ q h => S.actErrors q h
  | .captureRead => answers_serveRow fun _ _ q h => Whole.actCaptureRead q h
  | .captureDelete => answers_serveRow fun S _ q h => S.actCaptureDelete q h
  | .captureLock => answers_serveRow fun S _ q h => S.actCaptureLock q true h
  | .captureUnlock => answers_serveRow fun S _ q h => S.actCaptureLock q false h
  | .captureTrigger => answers_serveRow fun S _ q h => S.actCaptureTrigger q h
  | .unknownRequest => answers_serveRow fun _ _ _ h => h

/-! ## What every effect keeps -/

/-- A step has one of the effects; the queue, which it takes its command from, has no part in them. -/
theorem effect_of_step {s t : State} (next : step s = .next t) : ∃ rest, ({ s with pending := rest } : State).Effect t := by
  unfold step at next
  split at next
  next =>
    cases next
    exact ⟨s.pending, effect_tick⟩
  next c rest waits =>
    obtain ⟨u, answer, effect⟩ := exec_answers c { s with pending := rest }
    cases answer.symm.trans next
    exact ⟨rest, effect⟩

theorem State.Effect.keeps_sound {s t : State} (effect : s.Effect t) (sound : s.dev.sound) : t.dev.sound := by
  cases effect with
  | works _ _ dev => exact dev _ sound_whole sound
  | idles _ dev => exact dev ▸ sound
  | loses _ dev => exact dev ▸ blank_sound s.dev
  | crosses p f _ dev => exact dev ▸ sound_whole.portAny p _ sound
  | boots nomf mgw up1 up2 _ dev => exact dev ▸ boot_sound s.dev s.nv nomf mgw up1 up2

/-- The frame that last left a port is kept through a reset. -/
theorem blank_crossed {d : Dev} (blank : d = d.blank) (p : Port) (f : EthFrame) :
    d.modPort p (fun r => { r with lastOut := some f }) = (d.modPort p (fun r => { r with lastOut := some f })).blank := by
  rw [blank]
  cases p <;> rfl

theorem State.Effect.keeps_blank {s t : State} (effect : s.Effect t) (blank : s.blankWhileJoined) : t.blankWhileJoined := by
  intro joined
  cases effect with
  | works _ run _ => exact absurd run joined
  | idles power dev => exact dev ▸ blank (power ▸ joined)
  | loses _ dev => rw [dev]; rfl
  | crosses p f before dev => exact dev ▸ blank_crossed (blank before) p f
  | boots _ _ _ _ run _ => exact absurd run joined

/-- Settles O5: whichever effect a step has, it keeps both. -/
theorem soundnessKeptByStep : Obligations.SoundnessKeptByStep := by
  refine ⟨fun s t sound next => ?_, fun s t blank next => ?_⟩
  · obtain ⟨rest, effect⟩ := effect_of_step next
    exact effect.keeps_sound sound
  · obtain ⟨rest, effect⟩ := effect_of_step next
    exact effect.keeps_blank blank

end Sys2Proof.Machine

/-!
The capture unit: its memory and the writing of a slot (O54), and what CAPTURE_READ and the locks (O51), CAPTURE_DELETE (O52) and
CAPTURE_TRIGGER (O53) decide.
-/
namespace Sys2Proof.Machine

/-! ## The capture memory -/

/-- A read gives back the last write: the list is split at the address written, below and above which nothing changes. -/
theorem memRead_memWrite {lo : Nat} {m : List (Nat × CapWord)} (wf : memWfFrom lo m = true) (x y : Nat) (v : CapWord) :
    memRead (memWrite m x v) y = if y = x then v else memRead m y := by
  induction m generalizing lo with
  | nil => by_cases zero : v = 0 <;> grind [memWrite, memRead]
  | cons p rest ih =>
    obtain ⟨a, w⟩ := p
    simp only [memWfFrom, Bool.and_eq_true, decide_eq_true_eq] at wf
    obtain ⟨-, above⟩ := wf
    have below (h : y < a + 1) : memRead rest y = 0 := memRead_below above h
    rcases Nat.lt_trichotomy x a with lt | rfl | gt
    · grind [memWrite, memRead]
    · grind [memWrite, memRead]
    · have step : memWrite ((a, w) :: rest) x v = (a, w) :: memWrite rest x v := by
        simp [memWrite, Nat.not_lt.mpr gt.le, gt.ne']
      rw [step, memRead, memRead, ih above]
      grind

section
variable {base n row phase : Nat} {values : Vector Sample 96}

/-- The writing of a slot changes no word but those of its channels. -/
theorem memRead_writeChannels_apart {m : List (Nat × CapWord)} (wf : Memory.wf m = true) {x k : Nat} {qs : List Nat}
    (apart : ∀ i < qs.length, x ≠ base + row * 8 * n + 8 * (k + i) + phase) :
    memRead (writeChannels m base n row phase values k qs) x = memRead m x := by
  induction qs generalizing m k with
  | nil => rfl
  | cons q qs ih =>
    have later (i : Nat) (low : i < qs.length) : x ≠ base + row * 8 * n + 8 * (k + 1 + i) + phase := by
      have := apart (i + 1) (Nat.succ_lt_succ low)
      omega
    rw [writeChannels, ih (memWrite_wf wf _ _) later, memRead_memWrite wf]
    exact if_neg (apart 0 (Nat.succ_pos _))

/-- Each channel's word reads as its sample: the words of the later channels lie elsewhere. -/
theorem memRead_writeChannels {m : List (Nat × CapWord)} (wf : Memory.wf m = true) (k : Nat) (qs : List Nat)
    (i : Fin qs.length) : memRead (writeChannels m base n row phase values k qs) (base + row * 8 * n + 8 * (k + i.val) + phase)
      = sampleWord (slotSample values qs[i]) := by
  induction qs generalizing m k with
  | nil => exact i.elim0
  | cons q qs ih =>
    cases i using Fin.cases with
    | zero =>
      rw [writeChannels, memRead_writeChannels_apart (memWrite_wf wf _ _) (by intro i _; simp; omega), memRead_memWrite wf]
      exact if_pos rfl
    | succ i =>
      have later := ih (memWrite_wf wf (base + row * 8 * n + 8 * k + phase) (sampleWord (slotSample values q))) (k + 1) i
      rwa [show k + 1 + i.val = k + i.succ.val by simp; omega] at later

end

theorem writeSlot_mem (c : Cap) (channels : List Nat) (values : Vector Sample 96) : (c.writeSlot channels values).mem =
    writeChannels c.mem (c.area.val * 32768) channels.length c.row c.phase values 0 channels := by
  unfold Cap.writeSlot
  dsimp only
  split <;> rfl

@[simp] theorem slotSample_val (values : Vector Sample 96) (q : Fin 96) : slotSample values q.val = tget values q := by
  simp [slotSample]

/-- Settles O54: the law of the memory, and the words of a slot's channels in turn. -/
theorem captureMemoryReadsBack : Obligations.CaptureMemoryReadsBack := by
  refine ⟨fun m x y v wf => memRead_memWrite wf x y v, fun c channels values wf => ⟨fun k q recorded => ?_, fun x apart => ?_⟩⟩
  · have word := memRead_writeChannels (base := c.area.val * 32768) (n := channels.length) (row := c.row) (phase := c.phase)
      (values := values) wf 0 channels k
    rw [recorded, slotSample_val, sampleWord] at word
    rw [writeSlot_mem, ← word]
    congr 1
    omega
  · rw [writeSlot_mem]
    refine memRead_writeChannels_apart wf fun i low => ?_
    have := apart ⟨i, low⟩
    dsimp only at this
    omega

/-! ## The record that a request names -/

/-- The record that lies in the area with the generation that a capture request names (R194). -/
def Cap.named (c : Cap) (q : Request) : Option CapRecord := c.find (field q.params 0 1) (field q.params 1 2)

theorem named_none {c : Cap} {q : Request}
    (absent : ∀ r ∈ c.records, ¬ (r.area.val = field q.params 0 1 ∧ r.gen.toNat = field q.params 1 2)) : c.named q = none := by
  unfold Cap.named Cap.find
  exact List.find?_eq_none.mpr fun r member => by simpa using absent r member

section
variable {s : State} {q : Request} {rest : List Request} {row : Nat × Nat}

/-- An action that leaves nothing reported is answered at once, whatever it changes. -/
theorem State.serves.exec_done (h : s.serves q rest row) {c : Instr} {act : Dev → Request → Response × Dev}
    (meaning : exec c s = s.whenRunning (fun d => d.serveRow row act)) {r : Response} {x : Dev}
    (acts : act (s.dev.taking q rest) q = (r, x)) (quiet : x.work = []) :
    exec c s = .next (s.withDev (x.respond q r)) := by
  have done : (act (s.dev.taking q rest) q).2.work = [] := acts ▸ quiet
  rw [meaning, State.whenRunning_eq h.running, h.serveRow_quiet act done, acts]

end

/-! ## CAPTURE_READ and the locks -/

section
variable {d : Dev} {q : Request} {r : CapRecord}

theorem actCaptureRead_stale (absent : d.cap.named q = none) : d.actCaptureRead q = (refuse resStale, d) := by
  unfold Cap.named at absent
  simp [Dev.actCaptureRead, Cap.decideRead, absent, resStale, resOk]

theorem actCaptureRead_busy (named : d.cap.named q = some r) (recording : r.recording = true) :
    d.actCaptureRead q = (refuse resBusy, d) := by
  unfold Cap.named at named
  simp [Dev.actCaptureRead, Cap.decideRead, named, recording, resBusy, resOk]

theorem actCaptureRead_range (named : d.cap.named q = some r) (stored : r.recording = false)
    (outside : r.channels.length ≤ field q.params 3 1 ∨ field q.params 6 2 = 0 ∨
      8 * r.length < field q.params 4 2 + field q.params 6 2) :
    d.actCaptureRead q = (refuse resRange, d) := by
  unfold Cap.named at named
  rcases outside with channel | samples
  · simp [Dev.actCaptureRead, Cap.decideRead, named, stored, channel, resRange, resOk]
  · simp [Dev.actCaptureRead, Cap.decideRead, named, stored, samples, resRange, resOk]

theorem actCaptureRead_ok (named : d.cap.named q = some r) (stored : r.recording = false)
    (channel : field q.params 3 1 < r.channels.length) (wanted : field q.params 6 2 ≠ 0)
    (inside : field q.params 4 2 + field q.params 6 2 ≤ 8 * r.length) :
    d.actCaptureRead q = ({ result := resOk, capture := some {
      area := field q.params 0 1, gen := field q.params 1 2, channel := field q.params 3 1, next := field q.params 4 2
      remaining := field q.params 6 2 } }, d) := by
  unfold Cap.named at named
  simp [Dev.actCaptureRead, Cap.decideRead, named, stored, Nat.not_le.mpr channel, wanted, Nat.not_lt.mpr inside]

theorem actCaptureLock_stale (absent : d.cap.named q = none) (v : Bool) : d.actCaptureLock q v = (refuse resStale, d) := by
  unfold Cap.named at absent
  simp [Dev.actCaptureLock, Cap.setLock, absent]

theorem actCaptureLock_ok (named : d.cap.named q = some r) (v : Bool) :
    d.actCaptureLock q v = (refuse resOk, { d with cap := { d.cap with
      records := d.cap.records.map (fun x => if x.area = r.area then { x with locked := v } else x) } }) := by
  unfold Cap.named at named
  simp [Dev.actCaptureLock, Cap.setLock, named]

end

/-- Settles O51: the requests change nothing but the lock, and report nothing. -/
theorem captureReadAndLock : Obligations.CaptureReadAndLock := by
  intro s q rest n serves d a g
  have bare : d = { s.dev with mgt := d.mgt } := taking_eq s.dev q rest
  have cap : d.cap = s.dev.cap := by rw [bare]
  simp only [← cap]
  refine ⟨?_, ?_, ?_, ?_⟩
  · rintro rfl absent
    exact serves.exec_quiet rfl (actCaptureRead_stale (named_none absent))
  · rintro r rfl named
    exact ⟨fun recording => serves.exec_quiet rfl (actCaptureRead_busy named recording),
      fun stored outside => serves.exec_quiet rfl (actCaptureRead_range named stored outside),
      fun stored channel wanted inside => serves.exec_quiet rfl (actCaptureRead_ok named stored channel wanted inside)⟩
  · rintro (rfl | rfl) absent
    · exact serves.exec_quiet (c := .captureLock) rfl (actCaptureLock_stale (named_none absent) true)
    · exact serves.exec_quiet (c := .captureUnlock) rfl (actCaptureLock_stale (named_none absent) false)
  · rintro r (rfl | rfl) named
    · exact serves.exec_done (c := .captureLock) rfl (actCaptureLock_ok named true) serves.work
    · exact serves.exec_done (c := .captureUnlock) rfl (actCaptureLock_ok named false) serves.work

/-! ## CAPTURE_DELETE -/

/-- The capture unit without the record of an area; its words stand (R195). -/
def Cap.without (c : Cap) (a : Fin 4) : Cap := { c with records := c.records.filter (fun x => decide (x.area ≠ a)) }

section
variable {d : Dev} {q : Request} {r : CapRecord}

theorem actCaptureDelete_stale (absent : d.cap.named q = none) : d.actCaptureDelete q = (refuse resStale, d) := by
  unfold Cap.named at absent
  simp [Dev.actCaptureDelete, Cap.delete, absent]

theorem actCaptureDelete_busy (named : d.cap.named q = some r) (recording : r.recording = true) :
    d.actCaptureDelete q = (refuse resBusy, d) := by
  unfold Cap.named at named
  simp [Dev.actCaptureDelete, Cap.delete, named, recording]

theorem actCaptureDelete_locked (named : d.cap.named q = some r) (stored : r.recording = false) (locked : r.locked = true) :
    d.actCaptureDelete q = (refuse resNotPermitted, d) := by
  unfold Cap.named at named
  simp [Dev.actCaptureDelete, Cap.delete, named, stored, locked]

theorem actCaptureDelete_done (named : d.cap.named q = some r) (stored : r.recording = false) (unlocked : r.locked = false) :
    d.actCaptureDelete q = (refuse resOk, { d with cap :=
      if d.cap.state = .stalled then (d.cap.without r.area).arm r.area else d.cap.without r.area }) := by
  unfold Cap.named at named
  simp only [Dev.actCaptureDelete, Cap.delete, named, stored, unlocked, Bool.false_eq_true, if_false]
  rfl

end

/-- Settles O52: the record's state decides, and CAP's state whether it arms. -/
theorem captureDeleted : Obligations.CaptureDeleted := by
  intro s q rest serves d a g
  have bare : d = { s.dev with mgt := d.mgt } := taking_eq s.dev q rest
  have cap : d.cap = s.dev.cap := by rw [bare]
  simp only [← cap]
  refine ⟨fun absent => serves.exec_quiet rfl (actCaptureDelete_stale (named_none absent)), fun r named => ⟨?_, ?_, ?_, ?_⟩⟩
  · exact fun recording => serves.exec_quiet rfl (actCaptureDelete_busy named recording)
  · exact fun stored locked => serves.exec_quiet rfl (actCaptureDelete_locked named stored locked)
  · intro stored unlocked active
    have acts := actCaptureDelete_done named stored unlocked
    rw [if_neg active] at acts
    exact serves.exec_done rfl acts serves.work
  · intro stored unlocked stalled
    have acts := actCaptureDelete_done named stored unlocked
    rw [if_pos stalled] at acts
    exact serves.exec_done rfl acts serves.work

/-! ## The record being made -/

theorem current_eq {c : Cap} {r : CapRecord} (member : r ∈ c.records) (recording : r.recording = true)
    (one : ∀ x ∈ c.records, x.recording = true → x = r) : c.current = some r := by
  obtain ⟨x, found⟩ := Option.isSome_iff_exists.mp
    (List.find?_isSome (p := CapRecord.recording).mpr ⟨r, member, recording⟩)
  rw [← one x (List.mem_of_find?_eq_some found) (List.find?_some found)]
  exact found

section
variable {c : Cap} {cfg : CaptureEntry} {k : TriggerKind} {n : Nat} {inst ms : Count32}

/-- The record that a trigger starts (R189): as many row-sets before the trigger as are filled, up to the setting. -/
def Cap.opened (c : Cap) (cfg : CaptureEntry) (k : TriggerKind) (subject : Nat) (inst ms : Count32) : CapRecord :=
  let pre := min cfg.pre c.filled
  let rows := 32768 / (8 * cfg.count)
  { area := c.area, gen := tget c.gens c.area, recording := true, firstInst := inst, firstMs := ms, count := 1
    triggers := [{ kind := k, subject := subject, inst := inst, ms := ms, offset := pre * 8 + c.phase }]
    start := (c.row + rows - pre) % rows, length := pre + cfg.post, pre := pre, post := cfg.post
    channels := cfg.used, worst := [], locked := false }

/-- The capture unit with the record being made, `r`, joined by a trigger (R190). -/
def Cap.joined (c : Cap) (r : CapRecord) (k : TriggerKind) (subject : Nat) (inst ms : Count32) : Cap :=
  { c with records := c.records.map (fun x =>
      if x.recording = true then r.retrigger c.row c.phase k subject inst ms else x) }

theorem trigger_ignored (refused : cfg.enables k = false ∨ c.state = .off ∨ c.state = .stalled) :
    c.trigger cfg k n inst ms = { c with ignored := sat32 c.ignored } := by
  unfold Cap.trigger
  rcases refused with off | off | off <;> simp [off]

theorem trigger_starts (enabled : cfg.enables k = true) (armed : c.state = .armed) :
    c.trigger cfg k n inst ms = { c with state := .post, records := c.records ++ [c.opened cfg k n inst ms] } := by
  simp only [Cap.trigger, enabled, armed, if_true, Cap.startRecord, Cap.opened, ← Nat.min_def]
  rfl

theorem trigger_joins (enabled : cfg.enables k = true) (post : c.state = .post) {r : CapRecord}
    (one : ∀ x ∈ c.records, x.recording = true → x = r) : c.trigger cfg k n inst ms = c.joined r k n inst ms := by
  calc c.trigger cfg k n inst ms
      = { c with records := c.records.map (fun x => if x.recording then x.retrigger c.row c.phase k n inst ms else x) } := by
        simp [Cap.trigger, enabled, post]
    _ = c.joined r k n inst ms := congrArg (fun rs => ({ c with records := rs } : Cap)) (List.map_congr_left fun x member => by
        split
        next recording => rw [one x member recording]
        next => rfl)

theorem current_starts (none : ∀ r ∈ c.records, r.recording = false) :
    ({ c with state := .post, records := c.records ++ [c.opened cfg k n inst ms] } : Cap).current =
      some (c.opened cfg k n inst ms) := by
  refine current_eq (List.mem_append_right _ (List.mem_singleton_self _)) rfl fun x member recording => ?_
  rcases List.mem_append.mp member with old | new
  · rw [none x old] at recording
    cases recording
  · exact List.mem_singleton.mp new

theorem current_joins {r : CapRecord} (member : r ∈ c.records) (recording : r.recording = true) :
    (c.joined r k n inst ms).current = some (r.retrigger c.row c.phase k n inst ms) := by
  refine current_eq (List.mem_map.mpr ⟨r, member, if_pos recording⟩) recording fun x mapped still => ?_
  obtain ⟨y, -, rfl⟩ := List.mem_map.mp mapped
  split at still
  next made => exact if_pos made
  next stored => exact absurd still stored

end

/-! ## CAPTURE_TRIGGER -/

section
variable {d : Dev} {q : Request}

theorem enables_manual (e : CaptureEntry) : e.enables .manual = true ↔ e.manual ≠ 0 := decide_eq_true_iff

theorem actCaptureTrigger_refused (refused : d.tab.capture.manual = 0 ∨ d.cap.state = .off ∨ d.cap.state = .stalled) :
    d.actCaptureTrigger q = (refuse resNotPermitted, { d with cap := { d.cap with ignored := sat32 d.cap.ignored } }) := by
  have turned : d.tab.capture.enables .manual = false ∨ d.cap.state = .off ∨ d.cap.state = .stalled :=
    refused.imp_left fun off => Bool.eq_false_iff.mpr fun on => (enables_manual _).mp on off
  have untaken : (d.tab.capture.enables .manual && (decide (d.cap.state = .armed) || decide (d.cap.state = .post))) = false := by
    rcases turned with off | off | off <;> simp [off]
  simp only [Dev.actCaptureTrigger, untaken, Dev.trigger, trigger_ignored turned]

/-- A trigger that is taken is answered with the area and the generation of the record that is then being made. -/
theorem actCaptureTrigger_taken (enabled : d.tab.capture.manual ≠ 0) (active : d.cap.state = .armed ∨ d.cap.state = .post)
    {c : Cap} (takes : d.cap.trigger d.tab.capture .manual q.src d.sau.inst d.now = c) {r : CapRecord} (making : c.current = some r) :
    d.actCaptureTrigger q = (okBytes (beBytes 1 r.area.val ++ beBytes 2 r.gen.toNat), { d with cap := c }) := by
  have taken : (d.tab.capture.enables .manual && (decide (d.cap.state = .armed) || decide (d.cap.state = .post))) = true := by
    simpa [(enables_manual _).mpr enabled] using active
  simp only [Dev.actCaptureTrigger, taken, Dev.trigger, takes, making]

end

/-- Settles O53: what the trigger makes of CAP's records, and the record then being made. -/
theorem captureTriggered : Obligations.CaptureTriggered := by
  intro s q rest serves d
  have bare : d = { s.dev with mgt := d.mgt } := taking_eq s.dev q rest
  have cap : d.cap = s.dev.cap := by rw [bare]
  have tab : d.tab = s.dev.tab := by rw [bare]
  have sau : d.sau = s.dev.sau := by rw [bare]
  have now : d.now = s.dev.now := by rw [bare]
  simp only [← cap, ← tab, ← sau, ← now]
  refine ⟨fun refused => ?_, fun manual armed fresh => ?_, fun r manual post member recording one => ?_⟩
  · exact serves.exec_done rfl (actCaptureTrigger_refused refused) serves.work
  · have starts := trigger_starts (n := q.src) (inst := d.sau.inst) (ms := d.now) ((enables_manual _).mpr manual) armed
    exact serves.exec_done rfl (actCaptureTrigger_taken manual (.inl armed) starts (current_starts fresh)) serves.work
  · have joins := trigger_joins (n := q.src) (inst := d.sau.inst) (ms := d.now) ((enables_manual _).mpr manual) post one
    have acts := actCaptureTrigger_taken manual (.inr post) joins (current_joins member recording)
    exact serves.exec_done rfl acts serves.work

end Sys2Proof.Machine

/-!
Management over the link: that the store changes at the ends of store writes alone (O4), and the requests that are answered at
once: IDENT, ECHO, READ and WATCH_READ (O36), WATCH_SET (O39), SELECT and CANCEL with the selection's timeout (O41), ERRORS and
those of no known code (O50).
-/
namespace Sys2Proof.Machine

/-! ## The store -/

section
variable {s t : State}

/-- What answers one of two states that keep the store keeps the store. -/
theorem nv_of_choice {p : Prop} [Decidable p] {x y : State} (next : (if p then Host.Outcome.next x else .next y : Result) = .next t)
    (first : x.nv = s.nv) (second : y.nv = s.nv) : t.nv = s.nv := by
  split at next <;> cases next
  · exact first
  · exact second

theorem resetNLow_nv (s : State) : s.resetNLow.nv = s.nv := by
  unfold State.resetNLow
  dsimp only
  split <;> rfl

theorem restart_nv (s : State) : s.restart.nv = s.nv := by
  unfold State.restart
  split <;> rfl

theorem complete_nv (s : State) (nomf mgw up1 up2 : Bool) : (s.complete nomf mgw up1 up2).nv = s.nv := by
  unfold State.complete
  split <;> rfl

/-- Settles O4: the commands of reset and bypass and a frame's reception keep the store, and every other command but the ends
of store writes acts on the device alone. -/
theorem storeChangesOnlyAtWriteEnds : Obligations.StoreChangesOnlyAtWriteEnds := by
  intro c s t noWrite noJob next
  cases c with
  | powerUp | auxSupplyLoss =>
    cases next
    rfl
  | resetNLow =>
    cases next
    exact resetNLow_nv s
  | resetComplete nomf mgw up1 up2 =>
    cases next
    exact complete_nv s nomf mgw up1 up2
  | restartReset =>
    cases next
    exact restart_nv s
  | stateStoreComplete ok => exact absurd rfl (noJob ok)
  | deviceWriteComplete | streamsWriteComplete | quantitiesWriteComplete | groupsWriteComplete | elementsWriteComplete
  | curvesWriteComplete | zonesWriteComplete | breakersWriteComplete | busesWriteComplete | sourcesWriteComplete
  | causesWriteComplete | schemesWriteComplete | generatorsWriteComplete | captureConfigWriteComplete
  | settingsLockWriteComplete => cases noWrite
  | _ => exact nv_of_choice next rfl rfl

end

/-! ## What the taking into service keeps of MGT -/

/-- The taking into service of a request other than a SELECT ends its originator's selection, and changes nothing else (R210). -/
theorem taking_unselects (d : Dev) (rest : List Request) {q : Request} (other : q.code ≠ 9) :
    d.taking q rest = d.modMgt (fun m => { m with
      queue := rest, service := some ⟨q, .acting⟩
      selection := if m.selection.any (fun x => decide (x.owner = q.src)) then none else m.selection }) := by
  rw [Dev.taking, Dev.serviceSelection, if_neg (fun select => other select.1), endSelection_eq]
  rfl

/-- The taking into service of a SELECT that is long enough keeps the selection (R210). -/
theorem taking_select (d : Dev) (rest : List Request) {q : Request} (select : q.code = 9) (long : 2 ≤ q.params.length) :
    d.taking q rest = d.modMgt (fun m => { m with queue := rest, service := some ⟨q, .acting⟩ }) :=
  if_pos ⟨select, long⟩

@[simp] theorem taking_watch (d : Dev) (q : Request) (rest : List Request) : (d.taking q rest).mgt.watch = d.mgt.watch := by
  unfold Dev.taking Dev.serviceSelection
  split
  next => rfl
  next => rw [endSelection_eq]; rfl

@[simp] theorem taking_errors (d : Dev) (q : Request) (rest : List Request) : (d.taking q rest).mgt.errors = d.mgt.errors := by
  unfold Dev.taking Dev.serviceSelection
  split
  next => rfl
  next => rw [endSelection_eq]; rfl

/-! ## IDENT, ECHO, READ and WATCH_READ -/

/-- The identity as its bytes (R201). -/
theorem identFields_bytes (d : Dev) : d.identFields.flatMap fieldBytes = [0x0F, 0x31, 0x1C, 0x8E, 1]
    ++ beBytes 2 d.tab.device.station ++ [if d.nomf then 1 else 0, if d.mgw then 1 else 0] ++ [if d.f60 then 60 else 50] := by
  cases hn : d.nomf <;> cases hm : d.mgw <;> cases hf : d.f60 <;>
    simp [Dev.identFields, fieldBytes, fU, sU, fB, bit, beBytes, Config.nominalHz, hn, hm, hf]

theorem rangeOk_iff {a first count : Nat} :
    rangeOk a first count = true ↔ a ≤ 20 ∧ 1 ≤ count ∧ first + count ≤ areaCount a := decide_eq_true_iff

section
variable {d : Dev} {q : Request}

theorem actRead_records (inside : rangeOk (field q.params 0 1) (field q.params 1 2) (field q.params 3 2) = true) :
    d.actRead q = ({ result := 0
                     items := (List.range (field q.params 3 2)).map
                       (fun k => .record (field q.params 0 1) (field q.params 1 2 + k)) }, d) := if_pos inside

theorem actRead_range (outside : ¬ rangeOk (field q.params 0 1) (field q.params 1 2) (field q.params 3 2) = true) :
    d.actRead q = (refuse resRange, d) := if_neg outside

end

/-- Settles O36: the four requests change nothing of the device and report nothing. -/
theorem readingRequestsAnswered : Obligations.ReadingRequestsAnswered := by
  intro s q rest n serves d
  refine ⟨?_, ?_, ?_, ?_⟩
  · rintro rfl
    have ident : d.identFields.flatMap fieldBytes = _ :=
      (congrArg (fun x : Dev => x.identFields.flatMap fieldBytes) (taking_eq s.dev q rest)).trans (identFields_bytes _)
    exact serves.exec_quiet rfl (congrArg (fun bs => (okBytes bs, d)) ident)
  · rintro rfl
    exact exec_echo serves
  · rintro rfl a first count rfl rfl rfl
    exact ⟨fun inside => serves.exec_quiet rfl (actRead_records (rangeOk_iff.mpr inside)),
      fun outside => serves.exec_quiet rfl (actRead_range (mt rangeOk_iff.mp outside))⟩
  · rintro rfl
    rw [← taking_watch s.dev q rest]
    exact serves.exec_quiet (act := Dev.actWatchRead) rfl rfl

/-! ## WATCH_SET -/

section
variable {d : Dev} {q : Request} {n : Nat}

theorem actWatchSet_length (inexact : q.params.length ≠ 1 + 4 * field q.params 0 1) :
    d.actWatchSet q = (refuse resLength, d) := if_pos inexact

theorem actWatchSet_invalid (whole : q.params.length = 1 + 4 * field q.params 0 1)
    (count : field q.params 0 1 < 1 ∨ 64 < field q.params 0 1) : d.actWatchSet q = (refuse resInvalid, d) :=
  (if_neg (not_not.mpr whole)).trans (if_pos count)

theorem actWatchSet_range (whole : q.params.length = 1 + 4 * field q.params 0 1)
    (count : ¬ (field q.params 0 1 < 1 ∨ 64 < field q.params 0 1))
    (unnamed : (watchItems (field q.params 0 1) (q.params.drop 1)).all d.watchable = false) :
    d.actWatchSet q = (refuse resRange, d) := by
  simp only [Dev.actWatchSet, whole, ne_eq, not_true_eq_false, count, unnamed, Bool.not_false, if_false, if_true]

theorem actWatchSet_taken (whole : q.params.length = 1 + 4 * field q.params 0 1)
    (count : ¬ (field q.params 0 1 < 1 ∨ 64 < field q.params 0 1))
    (named : (watchItems (field q.params 0 1) (q.params.drop 1)).all d.watchable = true) :
    d.actWatchSet q = (refuse resOk, d.modMgt (fun m => { m with watch := watchItems (field q.params 0 1) (q.params.drop 1) })) := by
  simp only [Dev.actWatchSet, whole, ne_eq, not_true_eq_false, count, named, Bool.not_true, Bool.false_eq_true, if_false]

end

/-- Settles O39: the checks in their order; a list that passes them takes the place of the one before. -/
theorem watchSetTakesList : Obligations.WatchSetTakesList := by
  rintro s q rest n serves rfl items d
  refine ⟨fun inexact => ?_, fun whole count => ?_, fun whole low high unnamed => ?_, fun whole low high named => ?_⟩
  · exact serves.exec_quiet rfl (actWatchSet_length inexact)
  · exact serves.exec_quiet rfl (actWatchSet_invalid whole count)
  · exact serves.exec_quiet rfl (actWatchSet_range whole (by omega) unnamed)
  · exact serves.exec_done rfl (actWatchSet_taken whole (by omega) named) serves.work

/-! ## The selection -/

section
variable {d : Dev} {q : Request}

theorem actSelect_invalid (unknown : 12 < q.target) : d.actSelect q = (refuse resInvalid, d) := if_pos unknown

theorem actSelect_conflict (known : q.target ≤ 12) {x : Selection} (held : d.mgt.selection = some x) (other : x.owner ≠ q.src) :
    d.actSelect q = (refuse resSelectConflict, d) := by
  simp [Dev.actSelect, Nat.not_lt.mpr known, held, other]

theorem actSelect_taken (known : q.target ≤ 12) (free : ∀ x, d.mgt.selection = some x → x.owner = q.src) :
    d.actSelect q = (refuse resOk, d.modMgt (fun m => { m with
      selection := some { owner := q.src, target := q.target, object := q.object, since := d.now } })) := by
  have noConflict : d.mgt.selection.any (fun x => decide (x.owner ≠ q.src)) = false := by
    rw [Option.any_eq_false]
    simpa using free
  simp only [Dev.actSelect, Nat.not_lt.mpr known, noConflict, Bool.false_eq_true, if_false]

end

theorem expireSelection_due {d : Dev} {x : Selection} (held : d.mgt.selection = some x)
    (due : reached (after x.since 30000) d.now = true) : d.expireSelection = d.modMgt (fun m => { m with selection := none }) := by
  have due' : reached (after x.since Config.selectionMs) d.now = true := due
  simp only [Dev.expireSelection, held, due', if_true]

/-- Settles O41: a SELECT finds the selection as it stood; a CANCEL's is ended as it is taken into service. -/
theorem selectionTakenAndEnded : Obligations.SelectionTakenAndEnded := by
  intro s
  refine ⟨?_, fun q rest serves => ?_, fun x run held due => ?_⟩
  · intro q rest serves d
    have code : q.code = 9 := Request.row_code serves.row (by decide)
    have long : 2 ≤ q.params.length := by
      have := serves.long
      rwa [code] at this
    have bare : d = s.dev.modMgt (fun m => { m with queue := rest, service := some ⟨q, .acting⟩ }) := taking_select s.dev rest code long
    have selection : d.mgt.selection = s.dev.mgt.selection := by rw [bare]; rfl
    have now : d.now = s.dev.now := by rw [bare]; rfl
    rw [← selection, ← now]
    refine ⟨fun unknown => ?_, ?_, fun known free => ?_⟩
    · exact serves.exec_quiet rfl (actSelect_invalid unknown)
    · rintro known ⟨x, held, other⟩
      exact serves.exec_quiet rfl (actSelect_conflict known held other)
    · exact serves.exec_done rfl (actSelect_taken known free) serves.work
  · have code : q.code = 11 := Request.row_code serves.row (by decide)
    rw [← taking_unselects s.dev rest (by rw [code]; decide)]
    exact serves.exec_quiet (act := Dev.actCancel) rfl rfl
  · rw [← expireSelection_due held due]
    exact State.whenRunning_eq run Dev.expireSelection

/-! ## ERRORS, and requests of no known code -/

/-- What ERRORS gives: the list's length and its entries as the list stands (R201). -/
def Dev.errorsData (d : Dev) : List Byte :=
  beBytes 1 d.mgt.errors.length ++ d.mgt.errors.flatMap (fun e => e.fields.flatMap fieldBytes)

/-- An entry as its bytes (R201, R214). -/
theorem errorEntry_bytes (e : ErrorEntry) : e.fields.flatMap fieldBytes = beBytes 1 e.code.code ++ beBytes 2 e.subject
    ++ beBytes 1 (if e.code.major then 1 else 0) ++ beBytes 4 e.firstMs.toNat ++ beBytes 4 e.lastMs.toNat ++ beBytes 2 e.count := by
  cases major : e.code.major <;> simp [ErrorEntry.fields, fieldBytes, fU, sU, bit, major]

/-- A clear leaves nothing in SERVICE mode, and else the MAJOR entries (R215). -/
theorem errorsKept_eq (d : Dev) :
    d.errorsKept = if d.mode = .service then [] else d.mgt.errors.filter (fun e => e.code.major) := by
  unfold Dev.errorsKept
  split
  next service => simp [service]
  next other => simp [other]

section
variable {d : Dev} {q : Request}

theorem actErrors_invalid (flag : 1 < field q.params 0 1) : d.actErrors q = (refuse resInvalid, d) := if_pos flag

theorem actErrors_list (flag : field q.params 0 1 = 0) : d.actErrors q = (okBytes d.errorsData, d) := by
  simp [Dev.actErrors, flag, Dev.errorsData]

theorem actErrors_clear (flag : field q.params 0 1 = 1) :
    d.actErrors q = (okBytes d.errorsData, d.modMgt (fun m => { m with errors := d.errorsKept })) := by
  simp [Dev.actErrors, flag, Dev.errorsData]

theorem actUnknown_code (other : q.code ≠ 10) : d.actUnknown q = (refuse resUnknown, d) := by
  simp only [Dev.actUnknown, other, if_false]

theorem actUnknown_target (operate : q.code = 10) : d.actUnknown q = (refuse resNotSelected, d) := by
  simp only [Dev.actUnknown, operate, if_true]

end

/-- Settles O50: the list is gathered before it is cleared, and a request of no known code changes nothing. -/
theorem errorsAndUnknownRequests : Obligations.ErrorsAndUnknownRequests := by
  intro s q rest d data
  have errors : d.mgt.errors = s.dev.mgt.errors := taking_errors s.dev q rest
  have gives : d.errorsData = data := by simp only [Dev.errorsData, errorEntry_bytes, errors, data]
  refine ⟨fun serves => ⟨fun flag => ?_, fun flag => ?_, fun flag => ?_⟩, fun serves other => ?_, fun serves operate => ?_⟩
  · exact serves.exec_quiet rfl (actErrors_invalid flag)
  · rw [← gives]
    exact serves.exec_quiet rfl (actErrors_list flag)
  · have mode : d.mode = s.dev.mode := by rw [show d = { s.dev with mgt := d.mgt } from taking_eq s.dev q rest]
    have acts := actErrors_clear (d := d) flag
    rw [errorsKept_eq, mode, gives] at acts
    exact serves.exec_done rfl acts serves.work
  · exact serves.exec_quiet rfl (actUnknown_code other)
  · exact serves.exec_quiet rfl (actUnknown_target operate)

end Sys2Proof.Machine

/-!
WRITE (O38): the conditions of the checks of R204, each as the statement names it, and the order in which the checks decide.
-/
namespace Sys2Proof.Machine

/-! ## The area, the lock word and the records -/

/-- The areas that are written in any mode, and those that are written in SERVICE mode (R202). -/
theorem mayWrite_iff {d : Dev} {a : Nat} : d.mayWrite a = true ↔
    a ∈ [6, 7, 11, 12, 13, 15] ∨ (d.mode = .service ∧ a ∈ [2, 3, 4, 5, 8, 9, 10, 14, 20]) := by
  simp only [Dev.mayWrite, writable, List.mem_cons, List.not_mem_nil, or_false]
  by_cases any : a = 6 ∨ a = 7 ∨ a = 11 ∨ a = 12 ∨ a = 13 ∨ a = 15
  · simp [any]
  · by_cases service : (2 ≤ a ∧ a ≤ 14) ∨ a = 20
    · have listed : a = 2 ∨ a = 3 ∨ a = 4 ∨ a = 5 ∨ a = 8 ∨ a = 9 ∨ a = 10 ∨ a = 14 ∨ a = 20 := by omega
      simp [any, service, listed]
    · have unlisted : ¬ (a = 2 ∨ a = 3 ∨ a = 4 ∨ a = 5 ∨ a = 8 ∨ a = 9 ∨ a = 10 ∨ a = 14 ∨ a = 20) := by omega
      simp [any, service, unlisted]

/-- The set that a lock word picks, counted from the bottom or from the top, or the others (R207). -/
theorem locks_iff {l : LockEntry} {e : Nat} :
    l.locks e = true ↔ (l.complement = 0 ↔ if l.fromTop = 0 then e < l.span else 32 ≤ e + l.span) := by
  unfold LockEntry.locks
  by_cases whole : l.complement = 0 <;> by_cases bottom : l.fromTop = 0 <;> simp [whole, bottom]

theorem writeLocked_iff {d : Dev} {a first count : Nat} : d.writeLocked a first count = true ↔
    a = 6 ∧ ∃ e, (first ≤ e ∧ e < first + count) ∧ d.tab.lock.locks e = true := by
  simp only [Dev.writeLocked, Bool.and_eq_true, decide_eq_true_eq, List.any_eq_true, List.mem_range]
  refine and_congr_right fun _ => ⟨?_, ?_⟩
  · rintro ⟨k, low, locked⟩
    exact ⟨first + k, ⟨by omega, by omega⟩, locked⟩
  · rintro ⟨e, ⟨low, high⟩, locked⟩
    exact ⟨e - first, by omega, by rwa [Nat.add_sub_cancel' low]⟩

/-- A WRITE has as many records as it counts. -/
@[simp] theorem readRecords_length (a first count : Nat) (bytes : List Byte) : (readRecords a first count bytes).length = count := by
  induction count generalizing first bytes with
  | zero => rfl
  | succ n ih => rw [readRecords, List.length_cons, ih]

theorem mem_covered_iff {size first n : Nat} {i : Fin size} :
    i ∈ covered size first n ↔ first ≤ i.val ∧ i.val < first + n := by simp [covered, idsWhere]

/-! ## BUSY -/

theorem curveBusy_iff {d : Dev} {k : Fin 8} : d.curveBusy k = true ↔ ∃ e : Fin 32, (d.elementCfg e).enable = 1 ∧
    (d.elementCfg e).kind = 0 ∧ (d.elementCfg e).curve = k.val ∧ (d.element e).picked = true := by
  simp [Dev.curveBusy, and_assoc]

section
variable {d : Dev} {a first : Nat} {recs : List (List Int)}

/-- The curves that a write within their area covers are those that the elements name. -/
theorem writeBusy_curves (inside : first + recs.length ≤ 8) : d.writeBusy 7 first recs = true ↔
    ∃ e : Fin 32, (d.elementCfg e).enable = 1 ∧ (d.elementCfg e).kind = 0 ∧
      (first ≤ (d.elementCfg e).curve ∧ (d.elementCfg e).curve < first + recs.length) ∧ (d.element e).picked = true := by
  simp only [Dev.writeBusy, List.any_eq_true, mem_covered_iff, curveBusy_iff]
  constructor
  · rintro ⟨k, written, e, enabled, inverse, names, picked⟩
    exact ⟨e, enabled, inverse, names ▸ written, picked⟩
  · rintro ⟨e, enabled, inverse, written, picked⟩
    exact ⟨⟨(d.elementCfg e).curve, by omega⟩, written, e, enabled, inverse, rfl, picked⟩

theorem writeBusy_breakers : d.writeBusy 9 first recs = true ↔ ∃ b : Fin 24, (first ≤ b.val ∧ b.val < first + recs.length) ∧
    ((d.breaker b).record.isSome = true ∨ (d.breaker b).claim.isSome = true) := by
  simp only [Dev.writeBusy, List.any_eq_true, mem_covered_iff, Bool.or_eq_true]

theorem writeBusy_schemes : d.writeBusy 13 first recs = true ↔
    ∃ t, d.running = some t ∧ first ≤ t.scheme.val ∧ t.scheme.val < first + recs.length := by
  simp only [Dev.writeBusy, Option.any_eq_true, List.contains_iff_mem, mem_covered_iff]

theorem writeBusy_sets : d.writeBusy 14 first recs = true ↔
    ∃ g : Fin 6, (first ≤ g.val ∧ g.val < first + recs.length) ∧ (d.gen g).state ≠ .stopped := by
  simp only [Dev.writeBusy, List.any_eq_true, mem_covered_iff, decide_eq_true_eq]

theorem writeBusy_capture : d.writeBusy 15 first recs = true ↔
    d.cap.state = .post ∧ (d.tab.writeRecords 15 first recs).capture.used ≠ d.tab.capture.used := by
  simp only [Dev.writeBusy, Bool.and_eq_true, decide_eq_true_eq]

/-- The owners of the other areas are never BUSY. -/
theorem writeBusy_other (other : a ≠ 7 ∧ a ≠ 9 ∧ a ≠ 13 ∧ a ≠ 14 ∧ a ≠ 15) : d.writeBusy a first recs = false := by
  unfold Dev.writeBusy
  split <;> simp_all

theorem writeBusy_iff (inside : first + recs.length ≤ areaCount a) : d.writeBusy a first recs = true ↔
    (a = 7 ∧ ∃ e : Fin 32, (d.elementCfg e).enable = 1 ∧ (d.elementCfg e).kind = 0 ∧
      (first ≤ (d.elementCfg e).curve ∧ (d.elementCfg e).curve < first + recs.length) ∧ (d.element e).picked = true) ∨
    (a = 9 ∧ ∃ b : Fin 24, (first ≤ b.val ∧ b.val < first + recs.length) ∧
      ((d.breaker b).record.isSome = true ∨ (d.breaker b).claim.isSome = true)) ∨
    (a = 13 ∧ ∃ t, d.running = some t ∧ first ≤ t.scheme.val ∧ t.scheme.val < first + recs.length) ∨
    (a = 14 ∧ ∃ g : Fin 6, (first ≤ g.val ∧ g.val < first + recs.length) ∧ (d.gen g).state ≠ .stopped) ∨
    (a = 15 ∧ d.cap.state = .post ∧ (d.tab.writeRecords 15 first recs).capture.used ≠ d.tab.capture.used) := by
  by_cases other : a ≠ 7 ∧ a ≠ 9 ∧ a ≠ 13 ∧ a ≠ 14 ∧ a ≠ 15
  · simp [writeBusy_other other, other]
  · have owner : a = 7 ∨ a = 9 ∨ a = 13 ∨ a = 14 ∨ a = 15 := by omega
    rcases owner with rfl | rfl | rfl | rfl | rfl
    · simp [writeBusy_curves inside]
    · simp [writeBusy_breakers]
    · simp [writeBusy_schemes]
    · simp [writeBusy_sets]
    · simp [writeBusy_capture]

end

/-! ## The order of the checks -/

/-- A check is passed where its condition fails and those after it are passed. -/
theorem check_passed_iff {p : Prop} [Decidable p] {refusal next : Nat} (refuses : refusal ≠ 0) :
    (if p then refusal else next) = 0 ↔ ¬ p ∧ next = 0 := by
  by_cases fails : p <;> simp [fails, refuses]

section
variable {d : Dev} {a first count : Nat} {bytes : List Byte}

/-- A WRITE is accepted when every check is passed (R204). -/
theorem checkWrite_ok_iff : d.checkWrite a first count bytes = 0 ↔
    rangeOk a first count = true ∧ bytes.length = count * areaSize a ∧ d.mayWrite a = true ∧ d.mgw = true ∧
      d.writeLocked a first count = false ∧ writeOk d.tab a first (readRecords a first count bytes) = true ∧
      d.writeBusy a first (readRecords a first count bytes) = false := by
  have refusals : resRange ≠ 0 ∧ resLength ≠ 0 ∧ resNotWritable ≠ 0 ∧ resWriteDisabled ≠ 0 ∧ resLocked ≠ 0 ∧ resInvalid ≠ 0 ∧
      resBusy ≠ 0 := by decide
  obtain ⟨range, length, notWritable, disabled, locked, invalid, busy⟩ := refusals
  simp only [Dev.checkWrite, check_passed_iff range, check_passed_iff length, check_passed_iff notWritable, check_passed_iff disabled,
    check_passed_iff locked, check_passed_iff invalid, check_passed_iff busy, Bool.not_eq_true', Bool.not_eq_false, Bool.not_eq_true,
    ne_eq, not_not, resOk, and_true]

theorem checkWrite_range (outside : ¬ rangeOk a first count = true) : d.checkWrite a first count bytes = resRange := by
  simp only [Dev.checkWrite, outside, Bool.not_false, if_true]

section
variable (inside : rangeOk a first count = true)
include inside

theorem checkWrite_length (inexact : bytes.length ≠ count * areaSize a) : d.checkWrite a first count bytes = resLength := by
  simp [Dev.checkWrite, inside, inexact]

section
variable (whole : bytes.length = count * areaSize a)
include whole

theorem checkWrite_notWritable (forbidden : ¬ d.mayWrite a = true) : d.checkWrite a first count bytes = resNotWritable := by
  simp [Dev.checkWrite, inside, whole, forbidden]

section
variable (permitted : d.mayWrite a = true)
include permitted

theorem checkWrite_disabled (disabled : d.mgw = false) : d.checkWrite a first count bytes = resWriteDisabled := by
  simp [Dev.checkWrite, inside, whole, permitted, disabled]

section
variable (enabled : d.mgw = true)
include enabled

theorem checkWrite_locked (locked : d.writeLocked a first count = true) : d.checkWrite a first count bytes = resLocked := by
  simp [Dev.checkWrite, inside, whole, permitted, enabled, locked]

section
variable (unlocked : ¬ d.writeLocked a first count = true)
include unlocked

theorem checkWrite_invalid (invalid : ¬ writeOk d.tab a first (readRecords a first count bytes) = true) :
    d.checkWrite a first count bytes = resInvalid := by
  simp [Dev.checkWrite, inside, whole, permitted, enabled, unlocked, invalid]

theorem checkWrite_busy (valid : writeOk d.tab a first (readRecords a first count bytes) = true)
    (busy : d.writeBusy a first (readRecords a first count bytes) = true) : d.checkWrite a first count bytes = resBusy := by
  simp [Dev.checkWrite, inside, whole, permitted, enabled, unlocked, valid, busy]

end
end
end
end
end
end

/-! ## The command -/

/-- What a WRITE is checked against stands beside MGT. -/
theorem checkWrite_taking (d : Dev) (q : Request) (rest : List Request) : (d.taking q rest).checkWrite = d.checkWrite := by
  rw [taking_eq]
  rfl

section
variable {s : State} {q : Request} {rest : List Request} {a first count r : Nat}

/-- A WRITE that passes its checks goes to the store with its records; another is answered with its result (R204). -/
theorem State.serves.exec_write (h : s.serves q rest (4, 0)) (area : a = field q.params 0 1) (start : first = field q.params 1 2)
    (counts : count = field q.params 3 2) (checks : s.dev.checkWrite a first count (q.params.drop 5) = r) :
    exec .write s = .next (s.withDev (if r = 0 then (s.dev.taking q rest).setService
        (some ⟨q, .storing a first (readRecords a first count (q.params.drop 5))⟩)
      else (s.dev.taking q rest).answer q r)) := by
  have code : q.code = 4 := Request.row_code h.row (by decide)
  have long : ¬ q.params.length < fixedLength 4 := Nat.not_lt.mpr (code ▸ h.long)
  change s.whenRunning Dev.serveWrite = _
  rw [State.whenRunning_eq h.running, Dev.serveWrite, h.enter]
  dsimp only
  rw [if_neg long, checkWrite_taking, ← area, ← start, ← counts, checks]
  rfl

end

/-- Settles O38: each check by the condition that decides it, after those before it. -/
theorem writeGoesToStoreOrIsRefused : Obligations.WriteGoesToStoreOrIsRefused := by
  intro s q rest a first count serves area start counts r
  have refused {k : Nat} (checks : s.dev.checkWrite a first count (q.params.drop 5) = k) (fails : k ≠ 0) :
      exec .write s = .next (s.withDev ((s.dev.taking q rest).answer q k)) :=
    (serves.exec_write area start counts checks).trans (by rw [if_neg fails])
  have long : 5 ≤ q.params.length := by
    have := serves.long
    rwa [Request.row_code serves.row (by decide)] at this
  have whole_iff : (q.params.drop 5).length = count * areaSize a ↔ q.params.length = 5 + count * areaSize a := by
    rw [List.length_drop]
    omega
  refine ⟨fun accepted => ?_, refused rfl, ?_⟩
  · obtain ⟨inside, whole, permitted, enabled, -⟩ := checkWrite_ok_iff.mp accepted
    obtain ⟨-, some, fits⟩ := rangeOk_iff.mp inside
    exact ⟨(serves.exec_write area start counts accepted).trans (by rw [if_pos rfl]), enabled, mayWrite_iff.mp permitted, some,
      fits, whole_iff.mp whole⟩
  · intro recs answers lock covers picked within whole permitted locked valid busy
    have inside_iff : rangeOk a first count = true ↔ within := rangeOk_iff
    have whole_iff : (q.params.drop 5).length = count * areaSize a ↔ whole := whole_iff
    have permitted_iff : s.dev.mayWrite a = true ↔ permitted := mayWrite_iff
    have locked_iff : s.dev.writeLocked a first count = true ↔ locked := writeLocked_iff.trans (by simp only [locks_iff]; rfl)
    have busy_iff (inside : rangeOk a first count = true) : s.dev.writeBusy a first recs = true ↔ busy := by
      have counted : recs.length = count := readRecords_length _ _ _ _
      obtain ⟨-, -, fits⟩ := rangeOk_iff.mp inside
      rw [writeBusy_iff (counted.symm ▸ fits), counted]
    simp only [← inside_iff, ← whole_iff, ← permitted_iff, ← locked_iff]
    refine ⟨?_, ?_, ?_, ?_, ?_, ?_, ?_, ?_⟩
    · exact fun outside => refused (checkWrite_range outside) (by decide)
    · exact fun inside inexact => refused (checkWrite_length inside inexact) (by decide)
    · exact fun inside whole forbidden => refused (checkWrite_notWritable inside whole forbidden) (by decide)
    · exact fun inside whole permitted disabled => refused (checkWrite_disabled inside whole permitted disabled) (by decide)
    · exact fun inside whole permitted enabled locked =>
        refused (checkWrite_locked inside whole permitted enabled locked) (by decide)
    · exact fun inside whole permitted enabled free invalid =>
        refused (checkWrite_invalid inside whole permitted enabled free invalid) (by decide)
    · exact fun inside whole permitted enabled free valid busy =>
        refused (checkWrite_busy inside whole permitted enabled free valid ((busy_iff inside).mpr busy)) (by decide)
    · exact fun inside whole permitted enabled free valid idle => checkWrite_ok_iff.mpr ⟨inside, whole, permitted, enabled,
        Bool.eq_false_iff.mpr free, valid, Bool.eq_false_iff.mpr (mt (busy_iff inside).mp idle)⟩

end Sys2Proof.Machine

/-!
The machine: a step with a command waiting and with none (O1, O3), and that every command answers a next state and leaves the
queue alone (O2).
-/
namespace Sys2Proof.Machine

/-! ## A step -/

theorem step_waiting (s : State) (c : Instr) (rest : List Instr) :
    step { s with pending := c :: rest } = exec c { s with pending := rest } := rfl

section
variable {s : State}

theorem step_empty (empty : s.pending = []) : step s = .next s.tick := by
  rw [step, empty]

theorem tick_joined (joined : s.power ≠ .running) : s.tick = s := if_neg joined

theorem tick_due (run : s.power = .running) (due : s.dev.due ≠ []) : s.tick = { s with pending := s.dev.due } := by
  rw [State.tick, if_pos run, if_neg due]

theorem tick_idle (run : s.power = .running) (idle : s.dev.due = []) :
    s.tick = { s with dev := { s.dev with now := s.dev.now + 1 }
                      pending := ({ s.dev with now := s.dev.now + 1 } : Dev).due } := by
  rw [State.tick, if_pos run, if_pos idle]

end

/-- Settles O1: the step takes the command and gives it the rest, which is the queue as it stood before the command came. -/
theorem stepRunsFrontCommand : Obligations.StepRunsFrontCommand := fun c s => step_waiting s c s.pending

/-- Settles O3: on an empty queue a step is a tick, and each of the three cases is a branch of the tick. -/
theorem tickOnEmptyQueue : Obligations.TickOnEmptyQueue := by
  intro s empty
  rw [step_empty empty]
  refine ⟨fun joined => ?_, fun run due => ?_, fun run idle => ?_⟩
  · rw [tick_joined joined]
  · rw [tick_due run due]
  · rw [tick_idle run idle]

/-! ## The queue -/

theorem resetNLow_pending (s : State) : s.resetNLow.pending = s.pending := by
  unfold State.resetNLow
  dsimp only
  split <;> rfl

theorem restart_pending (s : State) : s.restart.pending = s.pending := by
  unfold State.restart
  split <;> rfl

theorem complete_pending (s : State) (nomf mgw up1 up2 : Bool) : (s.complete nomf mgw up1 up2).pending = s.pending := by
  unfold State.complete
  split <;> rfl

/-- Whether a store write ends well, ends in a fault or is not in progress, its end leaves the queue alone. -/
theorem completeWrite_pending (s : State) (a : Nat) (ok : Bool) : (s.completeWrite a ok).pending = s.pending := by
  unfold State.completeWrite
  split
  next q x first recs storing =>
    split
    · split <;> rfl
    · rfl
  next => rfl

theorem completeJob_pending (s : State) (ok : Bool) : (s.completeJob ok).pending = s.pending := by
  unfold State.completeJob
  split
  next => rfl
  next j js oldest =>
    dsimp only
    split <;> rfl

/-- What answers one of two states with the queue of `s` answers a next state with it. -/
theorem next_of_choice {p : Prop} [Decidable p] {s x y : State} (first : x.pending = s.pending)
    (second : y.pending = s.pending) :
    ∃ t, (if p then Host.Outcome.next x else .next y : Result) = .next t ∧ t.pending = s.pending := by
  split
  · exact ⟨x, rfl, first⟩
  · exact ⟨y, rfl, second⟩

/-- Settles O2: the commands of reset answer one state, the ends of store writes one of two by whether the part runs, and every
other command acts on the device alone. -/
theorem everyCommandAnswersNext : Obligations.EveryCommandAnswersNext := by
  intro c s
  cases c with
  | powerUp | auxSupplyLoss => exact ⟨_, rfl, rfl⟩
  | resetNLow => exact ⟨_, rfl, resetNLow_pending s⟩
  | resetComplete nomf mgw up1 up2 => exact ⟨_, rfl, complete_pending s nomf mgw up1 up2⟩
  | restartReset => exact ⟨_, rfl, restart_pending s⟩
  | stateStoreComplete ok => exact next_of_choice (completeJob_pending s ok) rfl
  | deviceWriteComplete ok | streamsWriteComplete ok | quantitiesWriteComplete ok | groupsWriteComplete ok
  | elementsWriteComplete ok | curvesWriteComplete ok | zonesWriteComplete ok | breakersWriteComplete ok
  | busesWriteComplete ok | sourcesWriteComplete ok | causesWriteComplete ok | schemesWriteComplete ok
  | generatorsWriteComplete ok | captureConfigWriteComplete ok | settingsLockWriteComplete ok =>
    exact next_of_choice (completeWrite_pending s _ ok) rfl
  | _ => exact next_of_choice rfl rfl

end Sys2Proof.Machine
